-- ==== Sys2Proof/Word.lean ====
section
/-! DEFINITION. The data that crosses the block's interface: bytes, command words, and the operands that travel beside a word. -/

namespace Sys2Proof

/-- A byte: an 8-bit unsigned value (00_scope.md R9). -/
abbrev Byte := BitVec 8

/-- The 32-bit command word (30_encoding.md R72). -/
abbrev Word := BitVec 32

/-! The types of times and of cycle counts are parameters, `τ` and `γ`, of everything that holds one: any type with decidable
equality and any type (00_scope.md R8, D9). A name written without them, as the host's interface writes `Instr` and `State`,
stands for its instance at the two types of tags below (log 6). -/

/-- The times of the instance the host's interface runs: tags, which have equality, no order and no arithmetic.
DESIGN CHOICE, log 6. -/
structure Time where
  tag : Nat
  deriving DecidableEq, Repr

/-- The cycle counts of that instance; no operation reads one. DESIGN CHOICE, log 6. -/
structure Cycles where
  tag : Nat
  deriving DecidableEq, Repr

/-- A number written with a fraction or an exponent, as a decimal: `mantissa`·10^(`exponent` − `fraction`), where
`fraction` counts the digits after the point (44_options.md R200, `Num x`). -/
structure Decimal where
  mantissa : Int
  fraction : Nat
  exponent : Option Int
  deriving DecidableEq, Repr

/-- The value of one option, as the parser hands it over (44_options.md R200). -/
inductive Value where
  | int (n : Int)
  | num (x : Decimal)
  | str (t : String)
  | bool
  | null
  | composite
  deriving DecidableEq, Repr

/-- SETOPT's operand, the parse result (44_options.md R200): `PARSE_FAIL`, or a finite list of pairs. -/
inductive Options where
  | parseFail
  | pairs (o : List (String × Value))
  deriving DecidableEq, Repr

/-- The operands that do not fit in a word and travel beside it, in the order of 30_encoding.md R70 (R73):
GENINT's t and c, BLIT's d, n, s, a and m, SETOPT's o. A word uses the ones its class names (log 14). -/
structure SideOperands (τ : Type := Time) (γ : Type := Cycles) where
  time : τ
  cycles : γ
  dstBase : Nat
  dstLength : Nat
  stride : Nat
  srcBase : Nat
  srcLength : Nat
  options : Options
  deriving DecidableEq, Repr

/-- The side operands of a word that has none: every number and tag 0 and an option list with no pair. -/
def SideOperands.zero : SideOperands := ⟨⟨0⟩, ⟨0⟩, 0, 0, 0, 0, 0, .pairs []⟩

/-- One command of the host: a word and its side operands (30_encoding.md R73, R79). -/
structure Command (τ : Type := Time) (γ : Type := Cycles) where
  word : Word
  side : SideOperands τ γ
  deriving DecidableEq, Repr

end Sys2Proof
end

