-- ==== Sys2Proof/Syntax.lean ====
section
/-! DEFINITION. The operations as syntax: one constructor for each row of spec/opcode_table.json (30_encoding.md R70, R75). -/

namespace Sys2Proof

/-- An operation of the block. The port is in the constructor, so a term names only ports the operation accepts. The
types of GENINT's time and cycle count are its parameters (R8). -/
inductive Instr (τ : Type := Time) (γ : Type := Cycles) where
  /-- `IN 0` (R100). -/
  | in0
  /-- `IN 1` (R101). -/
  | in1
  /-- `IN 2` (R102). -/
  | in2
  /-- `IN 3` (R103). -/
  | in3
  /-- `IN 4` (R104). -/
  | in4
  /-- `IN 5` (R105). -/
  | in5
  /-- `IN 6` (R106). -/
  | in6
  /-- `OUT 2, v` (R122). -/
  | out2 (v : Byte)
  /-- `OUT 3, v` (R123). -/
  | out3 (v : Byte)
  /-- `OUT 4, v` (R124). -/
  | out4 (v : Byte)
  /-- `OUT 5, v` (R125). -/
  | out5 (v : Byte)
  /-- `OUT 6, v` (R126). -/
  | out6 (v : Byte)
  /-- `GENINT t, c` (R140). -/
  | genint (t : τ) (c : γ)
  /-- `BLIT d, n, s, a, m`: dst base, dst length, row stride, src base, src length (R160). -/
  | blit (d n s a m : Nat)
  /-- `SETOPT o` (R200). -/
  | setopt (o : Options)
  /-- `QWIDTH` (R170). -/
  | qwidth
  /-- `QHEIGHT` (R171). -/
  | qheight
  /-- `RESET` (R270). -/
  | reset
  deriving DecidableEq, Repr

end Sys2Proof
end

