-- ==== Sys2Proof/WellFormed.lean ====
section
/-! DEFINITION. Which terms of the syntax are operations the spec names. -/

namespace Sys2Proof

/-- `Num x` is a number with a fraction or an exponent; one that has neither is an `Int` (44_options.md R200). -/
def Decimal.wellFormed (x : Decimal) : Bool := x.fraction != 0 || x.exponent.isSome

/-- An option value is well formed unless it is an integer spelled as a `Num`. -/
def Value.wellFormed : Value → Bool
  | .num x => x.wellFormed
  | .int _ => true
  | .str _ => true
  | .bool => true
  | .null => true
  | .composite => true

/-- SETOPT's operand: every value of the list is well formed. Duplicate and unknown keys are legal operands
(44_options.md R200, R212). -/
def Options.wellFormed : Options → Bool
  | .parseFail => true
  | .pairs o => o.all fun pair => pair.2.wellFormed

/-- An instruction is well formed when its operands are. Bytes and ports hold by their types; GENINT's two operands
and BLIT's naturals take any value (20_memory.md R56), and BLIT's bounds are preconditions checked when it runs (43_blit.md R162). -/
def Instr.wellFormed {τ γ : Type} : Instr τ γ → Bool
  | .setopt o => o.wellFormed
  | .in0 => true
  | .in1 => true
  | .in2 => true
  | .in3 => true
  | .in4 => true
  | .in5 => true
  | .in6 => true
  | .out2 _ => true
  | .out3 _ => true
  | .out4 _ => true
  | .out5 _ => true
  | .out6 _ => true
  | .genint _ _ => true
  | .blit _ _ _ _ _ => true
  | .qwidth => true
  | .qheight => true
  | .reset => true

end Sys2Proof
end

