-- ==== Sys2Proof/Decode.lean ====
section
/-! DEFINITION. Decoding a command (30_encoding.md R76), the encoder beside it, the opcode table (R75) and the
pseudo-operations (R81). -/

namespace Sys2Proof

variable {τ γ : Type}

/-- Bits 31 to 24: the operation class (R72). -/
def Word.cls (w : Word) : Byte := w.extractLsb' 24 8

/-- Bits 23 to 16: the port number (R72, R73). -/
def Word.port (w : Word) : Byte := w.extractLsb' 16 8

/-- Bits 15 to 8: reserved, must be 0 (R72). -/
def Word.rsv (w : Word) : Byte := w.extractLsb' 8 8

/-- Bits 7 to 0: the data byte (R72, R73). -/
def Word.data (w : Word) : Byte := w.extractLsb' 0 8

/-- What a word spells before its port is looked at: the operations of R70, where IN and OUT take any 8-bit port. -/
inductive Operation (τ : Type := Time) (γ : Type := Cycles) where
  | input (port : Byte)
  | output (port data : Byte)
  | genint (t : τ) (c : γ)
  | blit (d n s a m : Nat)
  | setopt (o : Options)
  | qwidth
  | qheight
  | reset
  deriving DecidableEq, Repr

/-- The operation of a class with no port and no data (R74), with the side operands it takes (R73). -/
def plainOperation (cls : Byte) (o : SideOperands τ γ) : Option (Operation τ γ) :=
  match cls.toNat with
  | 3 => some (.genint o.time o.cycles)
  | 4 => some (.blit o.dstBase o.dstLength o.stride o.srcBase o.srcLength)
  | 5 => some (.setopt o.options)
  | 6 => some .qwidth
  | 7 => some .qheight
  | 8 => some .reset
  | _ => none

/-- The decoder of R76, total on every word; `none` is a word that spells no operation (R77). -/
def decodeOperation (w : Word) (o : SideOperands τ γ) : Option (Operation τ γ) :=
  if w.rsv ≠ 0 then none
  else if w.cls = 1 then
    if w.data ≠ 0 then none else some (.input w.port)
  else if w.cls = 2 then some (.output w.port w.data)
  else if w.port ≠ 0 ∨ w.data ≠ 0 then none
  else plainOperation w.cls o

/-- The read of a port (20_memory.md R51); `none` for ports 7 to 255 (40_port_read.md R107). -/
def portRead (p : Byte) : Option (Instr τ γ) :=
  match p.toNat with
  | 0 => some .in0
  | 1 => some .in1
  | 2 => some .in2
  | 3 => some .in3
  | 4 => some .in4
  | 5 => some .in5
  | 6 => some .in6
  | _ => none

/-- The write of a port (20_memory.md R51); `none` for ports 0, 1 and 7 to 255 (41_port_write.md R120, R121, R127). -/
def portWrite (p v : Byte) : Option (Instr τ γ) :=
  match p.toNat with
  | 2 => some (.out2 v)
  | 3 => some (.out3 v)
  | 4 => some (.out4 v)
  | 5 => some (.out5 v)
  | 6 => some (.out6 v)
  | _ => none

/-- What a command is: an instruction, a word that spells nothing, or an IN or OUT of a port that does not accept it. -/
inductive Decoded (τ : Type := Time) (γ : Type := Cycles) where
  | instr (i : Instr τ γ)
  /-- F_BAD_CMD(w) (R76, R77). -/
  | badCmd (w : Word)
  /-- The word decodes and its operation faults F_BAD_PORT(p) when it runs (R76, R77). -/
  | badPort (p : Byte)
  deriving DecidableEq, Repr

/-- The instruction of an operation, or the port it does not accept. -/
def Operation.select : Operation τ γ → Decoded τ γ
  | .input p => match portRead p with
    | some i => .instr i
    | none => .badPort p
  | .output p v => match portWrite p v with
    | some i => .instr i
    | none => .badPort p
  | .genint t c => .instr (.genint t c)
  | .blit d n s a m => .instr (.blit d n s a m)
  | .setopt o => .instr (.setopt o)
  | .qwidth => .instr .qwidth
  | .qheight => .instr .qheight
  | .reset => .instr .reset

/-- Decode a command: R76, then the port map of 20_memory.md R51. -/
def decode (c : Command τ γ) : Decoded τ γ :=
  match decodeOperation c.word c.side with
  | none => .badCmd c.word
  | some op => op.select

/-- A word from its fields (R72). -/
def fieldsWord (cls port data : Byte) : Word := cls ++ port ++ (0x00#8) ++ data

/-- The command of an instruction, from the class values of R74, beside side operands `o` whose places it does not use (log
14). -/
def encodeBeside (o : SideOperands τ γ) : Instr τ γ → Command τ γ
  | .in0 => ⟨fieldsWord 0x01 0 0, o⟩
  | .in1 => ⟨fieldsWord 0x01 1 0, o⟩
  | .in2 => ⟨fieldsWord 0x01 2 0, o⟩
  | .in3 => ⟨fieldsWord 0x01 3 0, o⟩
  | .in4 => ⟨fieldsWord 0x01 4 0, o⟩
  | .in5 => ⟨fieldsWord 0x01 5 0, o⟩
  | .in6 => ⟨fieldsWord 0x01 6 0, o⟩
  | .out2 v => ⟨fieldsWord 0x02 2 v, o⟩
  | .out3 v => ⟨fieldsWord 0x02 3 v, o⟩
  | .out4 v => ⟨fieldsWord 0x02 4 v, o⟩
  | .out5 v => ⟨fieldsWord 0x02 5 v, o⟩
  | .out6 v => ⟨fieldsWord 0x02 6 v, o⟩
  | .genint t c => ⟨fieldsWord 0x03 0 0, { o with time := t, cycles := c }⟩
  | .blit d n s a m =>
    ⟨fieldsWord 0x04 0 0, { o with dstBase := d, dstLength := n, stride := s, srcBase := a, srcLength := m }⟩
  | .setopt x => ⟨fieldsWord 0x05 0 0, { o with options := x }⟩
  | .qwidth => ⟨fieldsWord 0x06 0 0, o⟩
  | .qheight => ⟨fieldsWord 0x07 0 0, o⟩
  | .reset => ⟨fieldsWord 0x08 0 0, o⟩

/-- The command of an instruction, the places it does not use being zeros (log 14). -/
def encode (i : Instr) : Command := encodeBeside SideOperands.zero i

/-- A row of the opcode map: its match and its mask (R75). -/
structure TableRow where
  pattern : Word
  mask : Word
  deriving DecidableEq, Repr

/-- The row of an instruction in the opcode map (R75, spec/opcode_table.json). -/
def Instr.row : Instr τ γ → TableRow
  | .in0 => ⟨0x01000000, 0xFFFFFFFF⟩
  | .in1 => ⟨0x01010000, 0xFFFFFFFF⟩
  | .in2 => ⟨0x01020000, 0xFFFFFFFF⟩
  | .in3 => ⟨0x01030000, 0xFFFFFFFF⟩
  | .in4 => ⟨0x01040000, 0xFFFFFFFF⟩
  | .in5 => ⟨0x01050000, 0xFFFFFFFF⟩
  | .in6 => ⟨0x01060000, 0xFFFFFFFF⟩
  | .out2 _ => ⟨0x02020000, 0xFFFFFF00⟩
  | .out3 _ => ⟨0x02030000, 0xFFFFFF00⟩
  | .out4 _ => ⟨0x02040000, 0xFFFFFF00⟩
  | .out5 _ => ⟨0x02050000, 0xFFFFFF00⟩
  | .out6 _ => ⟨0x02060000, 0xFFFFFF00⟩
  | .genint _ _ => ⟨0x03000000, 0xFFFFFFFF⟩
  | .blit _ _ _ _ _ => ⟨0x04000000, 0xFFFFFFFF⟩
  | .setopt _ => ⟨0x05000000, 0xFFFFFFFF⟩
  | .qwidth => ⟨0x06000000, 0xFFFFFFFF⟩
  | .qheight => ⟨0x07000000, 0xFFFFFFFF⟩
  | .reset => ⟨0x08000000, 0xFFFFFFFF⟩

/-- One instruction of each row, in the table's order. -/
def tableSamples : List Instr :=
  [.in0, .in1, .in2, .in3, .in4, .in5, .in6, .out2 0, .out3 0, .out4 0, .out5 0, .out6 0, .genint ⟨0⟩ ⟨0⟩,
    .blit 0 0 0 0 0, .setopt (.pairs []), .qwidth, .qheight, .reset]

/-- The opcode map (R75). -/
def opcodeTable : List TableRow := tableSamples.map Instr.row

/-- A word spells a row when its bits under the mask are the row's match. -/
def TableRow.spells (r : TableRow) (w : Word) : Bool := w &&& r.mask == r.pattern

/-- The pseudo-operations (R81). -/
inductive Pseudo where
  | ldsr (hi lo : Byte)
  | shiftrd (s : Byte)
  | shift16 (hi lo s : Byte)
  | quiet3
  | quiet5
  | kick
  deriving DecidableEq, Repr

/-- The operations a pseudo-operation stands for, in order (R81). -/
def Pseudo.expand : Pseudo → List (Instr τ γ)
  | .ldsr hi lo => [.out4 lo, .out4 hi]
  | .shiftrd s => [.out2 s, .in3]
  | .shift16 hi lo s => [.out4 lo, .out4 hi, .out2 s, .in3]
  | .quiet3 => [.out3 0x00]
  | .quiet5 => [.out5 0x00]
  | .kick => [.out6 0x00]

/-- The 32-bit word of a table word of `nbits` bits; the bits above are 0. -/
def tableWord (nbits w : Nat) : Word := BitVec.ofNat 32 (w % 2 ^ nbits)

/-- The instruction the decoder reads from a table word with side operands of zeros. A command word is one 32-bit value
with no byte order (20_memory.md R55, 30_encoding.md R79), so nothing is laid out in bytes; no command is longer. -/
def decodeTableWord (nbits w : Nat) : Option Instr :=
  if 32 < nbits then none
  else
    match decode ⟨tableWord nbits w, SideOperands.zero⟩ with
    | .instr i => some i
    | .badCmd _ => none
    | .badPort _ => none

end Sys2Proof
end

