-- ==== Sys2Proof/Config.lean ====
section
/-! DEFINITION. The parameters the spec leaves open (00_scope.md R8) and the free values its draws take. -/

namespace Sys2Proof

/-- A pixel depth: 1 or 8 bits (00_scope.md R7). -/
inductive Depth where
  | one
  | eight
  deriving DecidableEq, Repr

/-- The values of `S.BPP`: 1, 8 or UNSET (10_state.md R28, R35). -/
inductive PixelDepth where
  | unset
  | bits (depth : Depth)
  deriving DecidableEq, Repr

/-- The parameters a model takes as arguments and no operation writes (00_scope.md R8; D8, D10, D29). They stand in
`Machine.State.config`, so a claim about every state is a claim about every value of them (log 7). -/
structure Config (τ : Type := Time) where
  /-- `LAST_TIME_RESET`: `lastSampledTime` after reset (10_state.md R34). -/
  lastTimeReset : τ
  /-- `BPP_RESET`: `pixelDepth` after reset (10_state.md R35). -/
  bppReset : PixelDepth
  /-- `HOST_ADDR_BITS`: the width of the host's byte addresses (20_memory.md R50). -/
  hostAddrBits : Nat
  deriving DecidableEq, Repr

/-- The parameters `Machine.State.reset` names: those of spec/95_test_vectors.md (`LAST_TIME_RESET` 0, `BPP_RESET` UNSET)
and a 32-bit host address. DESIGN CHOICE, log 7. -/
def Config.named : Config := ⟨⟨0⟩, .unset, 32⟩

/-- The n-th draw `SR_RESET`: any 16-bit value (10_state.md R30, D5). A free value: log 9. -/
opaque Config.srReset : Nat → BitVec 16

/-- The n-th draw `SA_RESET`: 0 to 7 (10_state.md R31, D6). A free value: log 9. -/
opaque Config.saReset : Nat → BitVec 3

/-- The n-th draw of a `random` colour: 0 to 254 (44_options.md R207, D21). A free value: log 11. -/
opaque Config.randomColour : Nat → Fin 255

/-- The padding byte at an offset of the destination region after the n-th drawing operation (43_blit.md R169, D14).
A free value: log 12. -/
opaque Config.paddingByte : Nat → Nat → Byte

/-- Which of several failing keys' codes the n-th drawing operation returns (44_options.md R201, D20). A free choice: log 13. -/
opaque Config.failedChoice : Nat → Nat

end Sys2Proof
end

