-- ==== Sys2Proof/Machine/State.lean ====
section
/-! DEFINITION. The state of the block (10_state.md R20), the host memory it reaches, the host's side of its transactions,
the reasons a step stops, and the state after reset. -/

namespace Sys2Proof.Machine

variable {τ γ : Type}

/-- The states of the interrupt scheduler (10_state.md R27): ISR_ONE is reported as code 1, ISR_TWO as code 2. -/
inductive Isr where
  | one
  | two
  deriving DecidableEq, Repr

/-- The scheduler's two fields, `S.NI` and `S.LT` (10_state.md R27), over any type `τ` of times: the parameter `Time` of
00_scope.md R8, taken as an argument. -/
structure Scheduler (τ : Type) where
  nextInterrupt : Isr
  lastSampledTime : τ
  deriving DecidableEq, Repr

/-- The values of `S.ORI` (10_state.md R28). -/
inductive Orientation where
  | cocktail
  | upright
  deriving DecidableEq, Repr

/-- What GENINT returns (42_interrupt.md R141). -/
inductive InterruptCode where
  | none
  | midScreen
  | vblank
  deriving DecidableEq, Repr

/-- What SETOPT returns (44_options.md R202). -/
inductive OptionCode where
  | noError
  | bpp
  | colour
  | orientation
  | jsonParse
  deriving DecidableEq, Repr

/-- The value an operation returns to the host (30_encoding.md R70): IN's byte or OUT's mask, GENINT's code, SETOPT's code,
QWIDTH's or QHEIGHT's number of pixels. -/
inductive Reply where
  | byte (v : Byte)
  | interrupt (c : InterruptCode)
  | option (c : OptionCode)
  | dimension (pixels : Nat)
  deriving DecidableEq, Repr

/-- One action of the host (30_encoding.md R71): it issues a command, or stores a byte into its own memory between two
commands (20_memory.md R61). The model's own script of inputs: log 1, log 2. -/
inductive HostAction (τ : Type := Time) (γ : Type := Cycles) where
  | issue (c : Command τ γ)
  | store (address : Nat) (v : Byte)
  deriving DecidableEq, Repr

/-- Host memory (20_memory.md R50): the listed bytes, addresses rising, none of them equal to `Memory.unlisted`. -/
abbrev Memory := List Host.Cell

/-- What an address that is not listed reads as. The spec gives host memory no first contents.
DESIGN CHOICE, log 10: 0x00. -/
def Memory.unlisted : Byte := 0x00#8

/-- The fault causes with the info each records (60_exceptions.md R241). An operation records one in `S.FAULT` by the shared
operation `raise`; a step of a block that holds one stops with it (R240). Each is safe: a faulted run proves nothing. -/
inductive Fault where
  /-- Code 1, F_BAD_CMD: raised by `step` on a word that spells no operation (R77). Safe. -/
  | badCmd (w : Word)
  /-- Code 2, F_BAD_PORT: raised by `step` on IN 7 to 255 and OUT 0, 1, 7 to 255 (R107, R120, R121, R127). Safe. -/
  | badPort (p : Byte)
  /-- Code 3, F_BAD_MODE: raised by BLIT while the pixel depth is UNSET (R160). Safe. -/
  | badMode
  /-- Code 4, F_BAD_SRC: raised by BLIT on its source buffer (R162). Safe. -/
  | badSrc (a m : Nat)
  /-- Code 5, F_BAD_STRIDE: raised by BLIT on a stride below the row bytes (R162). Safe. -/
  | badStride (s rb : Nat)
  /-- Code 6, F_DST_SMALL: raised by BLIT on its destination buffer; the third number is stride × height (R162). Safe. -/
  | dstSmall (d n need : Nat)
  /-- Code 7, F_OVERLAP: raised by BLIT when the written region meets the source (R162). Safe. -/
  | overlap (a d : Nat)
  deriving DecidableEq, Repr

/-- Why a step has no meaning. -/
inductive Refusal where
  /-- Raised by an arm of `exec` whose instruction has no meaning yet; no arm is left so. Safe. -/
  | notModelled (mnemonic : String)
  /-- Raised by every operation of a block whose `S.REFUSED` is set: it has no further step (R247). Safe. -/
  | blockRefused
  /-- Raised by `step` on a host store to an address outside the host's space (20_memory.md R50); no operation of the block
  raises it (log 2). Safe. -/
  | noSuchHostAddress
  deriving DecidableEq, Repr

/-- The state: the record of 10_state.md R20, host memory, and the model's own fields. The types of
times and of cycle counts are its parameters (00_scope.md R8). -/
structure State (τ : Type := Time) (γ : Type := Cycles) where
  /-- `S.SR` (R21). -/
  shiftRegister : BitVec 16
  /-- `S.SA` (R22). -/
  shiftAmount : BitVec 3
  /-- `S.L3` (R23). -/
  port3Latch : Byte
  /-- `S.L5` (R23). -/
  port5Latch : Byte
  /-- `S.NI` (R27). -/
  nextInterrupt : Isr
  /-- `S.LT` (R27). -/
  lastSampledTime : τ
  /-- `S.BPP` (R28). -/
  pixelDepth : PixelDepth
  /-- `S.ORI` (R28). -/
  orientation : Orientation
  /-- `S.FG` (R28). -/
  foregroundColour : Byte
  /-- `S.FAULT` (R38, R240). -/
  fault : Option Fault
  /-- `S.REFUSED` (R38, R247). -/
  refused : Bool
  /-- Host memory (20_memory.md R50, R52). -/
  mem : Memory
  /-- The model's own: the parameters of 00_scope.md R8, which no step writes (log 7). -/
  config : Config τ
  /-- The model's own: the host's actions still to come, oldest first (log 1). -/
  pending : List (HostAction τ γ)
  /-- The model's own: what the last transaction returned to the host (log 3). -/
  reply : Option Reply
  /-- The model's own: the counter the free values are indexed by (log 9). -/
  draws : Nat
  deriving DecidableEq, Repr

def State.setShiftRegister (s : State τ γ) (v : BitVec 16) : State τ γ := { s with shiftRegister := v }
def State.setShiftAmount (s : State τ γ) (v : BitVec 3) : State τ γ := { s with shiftAmount := v }
def State.setPort3Latch (s : State τ γ) (v : Byte) : State τ γ := { s with port3Latch := v }
def State.setPort5Latch (s : State τ γ) (v : Byte) : State τ γ := { s with port5Latch := v }
def State.setNextInterrupt (s : State τ γ) (v : Isr) : State τ γ := { s with nextInterrupt := v }
def State.setLastSampledTime (s : State τ γ) (v : τ) : State τ γ := { s with lastSampledTime := v }
def State.setPixelDepth (s : State τ γ) (v : PixelDepth) : State τ γ := { s with pixelDepth := v }
def State.setOrientation (s : State τ γ) (v : Orientation) : State τ γ := { s with orientation := v }
def State.setForegroundColour (s : State τ γ) (v : Byte) : State τ γ := { s with foregroundColour := v }
def State.setFault (s : State τ γ) (v : Option Fault) : State τ γ := { s with fault := v }
def State.setRefused (s : State τ γ) (v : Bool) : State τ γ := { s with refused := v }
def State.setMem (s : State τ γ) (v : Memory) : State τ γ := { s with mem := v }
def State.setPending (s : State τ γ) (v : List (HostAction τ γ)) : State τ γ := { s with pending := v }
def State.setReply (s : State τ γ) (v : Option Reply) : State τ γ := { s with reply := v }
def State.setDraws (s : State τ γ) (v : Nat) : State τ γ := { s with draws := v }

/-- The scheduler of the block. -/
def State.scheduler (s : State τ γ) : Scheduler τ := ⟨s.nextInterrupt, s.lastSampledTime⟩

def State.setScheduler (s : State τ γ) (n : Scheduler τ) : State τ γ :=
  (s.setNextInterrupt n.nextInterrupt).setLastSampledTime n.lastSampledTime

/-- The block just created (70_reset_and_hazards.md R271), under the parameters `config` of 00_scope.md R8. DESIGN CHOICE: the
shift register and the shift amount, which the spec leaves to draws, are 0 (log 8); host memory lists nothing (log 10); the
host has issued nothing and got nothing back (log 1, log 3). -/
def State.resetWith (config : Config τ) : State τ γ where
  shiftRegister := 0x0000
  shiftAmount := 0
  port3Latch := 0x00
  port5Latch := 0x00
  nextInterrupt := .one
  lastSampledTime := config.lastTimeReset
  pixelDepth := config.bppReset
  orientation := .cocktail
  foregroundColour := 0xFF
  fault := none
  refused := false
  mem := []
  config := config
  pending := []
  reply := none
  draws := 0

/-- The block just created, under the parameters the model names (DESIGN CHOICE, log 7). -/
def State.reset : State := State.resetWith Config.named

end Sys2Proof.Machine
end

