-- ==== Sys2Proof/Machine/Ops.lean ====
section
/-! DEFINITION. The named operations over host memory and over the block's marks: reading and writing bytes, the guard every
operation runs under, returning a value, raising a fault, refusing, and the host's own store. -/

namespace Sys2Proof.Machine

variable {τ γ : Type}

/-- The outcome of an operation. -/
abbrev Result (τ : Type := Time) (γ : Type := Cycles) := Host.Outcome (State τ γ) Fault Refusal

/-- `MemRead(addr, 1)` (00_scope.md R11). -/
def Memory.read : Memory → Nat → Byte
  | [], _ => Memory.unlisted
  | (k, v) :: rest, a => if k = a then v else Memory.read rest a

/-- The cells that say one byte: none when the byte is what an unlisted address reads as. -/
def Memory.cell (a : Nat) (v : Byte) : Memory := if v = Memory.unlisted then [] else [(a, v)]

/-- `MemWrite(addr, 1, v)` (00_scope.md R11). -/
def Memory.write : Memory → Nat → Byte → Memory
  | [], a, v => Memory.cell a v
  | (k, w) :: rest, a, v =>
    if k < a then (k, w) :: Memory.write rest a v
    else if k = a then Memory.cell a v ++ rest
    else Memory.cell a v ++ (k, w) :: rest

/-- The cells of `len` bytes from `base`, the byte at offset `o` being `f o`. -/
def Memory.region (base len : Nat) (f : Nat → Byte) : Memory :=
  ((List.range len).map fun o => (base + o, f o)).filter fun c => c.2 != Memory.unlisted

/-- Write `len` bytes from `base` at once, the byte at offset `o` being `f o`, and keep every other byte. The order in which
a BLIT writes its bytes cannot be observed (43_blit.md R172). -/
def Memory.writeRegion (m : Memory) (base len : Nat) (f : Nat → Byte) : Memory :=
  m.filter (fun c => decide (c.1 < base)) ++ Memory.region base len f ++ m.filter (fun c => decide (base + len ≤ c.1))

/-- The canonical form: addresses strictly rising, no entry equal to what an unlisted address reads as. -/
def Memory.wf (m : Memory) : Bool :=
  decide ((m.map Prod.fst).Pairwise (· < ·)) && m.all fun c => c.2 != Memory.unlisted

/-- Every listed address is below 2^bits, so it is an address of the host (20_memory.md R50). -/
def Memory.within (m : Memory) (bits : Nat) : Bool := m.all fun c => decide (c.1 < 2 ^ bits)

/-- A block that may run an operation: neither mark is set (60_exceptions.md R240, R247). -/
abbrev State.Running (s : State τ γ) : Prop := s.fault = none ∧ s.refused = false

/-- The guard of every operation: a faulted block stops with its fault (R240) and a refused one is refused (R247);
RESET is no exception. -/
def whenRunning (s : State τ γ) (k : Result τ γ) : Result τ γ :=
  match s.fault with
  | some f => .fault f
  | none => if s.refused then .refused .blockRefused else k

/-- `return v` (00_scope.md R11): the operation completes in `s` and the host gets `v`. -/
def answer (v : Reply) (s : State τ γ) : Result τ γ := .next (s.setReply (some v))

/-- The operation completes in `s` and returns nothing to the host (30_encoding.md R70). -/
def finish (s : State τ γ) : Result τ γ := .next (s.setReply none)

/-- `raise F_<name>(info)`: the fault state (60_exceptions.md R240). The mark is set, nothing else of the block or of host
memory changes, and the operation returns nothing. The block has no handler, vector or saved state (R245), and there is no
return from a fault (R246). -/
def raise (f : Fault) (s : State τ γ) : Result τ γ := finish (s.setFault (some f))

/-- `refuse <reason>` (60_exceptions.md R247): the mark is set and nothing else changes. The reasons are DUPLICATE_KEY and
AMBIGUOUS_BPP; the state holds no reason (10_state.md R20). -/
def refuse (s : State τ γ) : Result τ γ := finish (s.setRefused true)

/-- One more operation has drawn its free values (00_scope.md R11 `draw`; log 9). -/
def State.afterDraw (s : State τ γ) : State τ γ := s.setDraws (s.draws + 1)

/-- The host stores a byte into its own memory between two operations (20_memory.md R61). It is no operation of the block
and returns nothing; an address outside the host's space does not exist (R50). Log 2. -/
def hostStore (a : Nat) (v : Byte) (s : State τ γ) : Result τ γ :=
  if a < 2 ^ s.config.hostAddrBits then .next (s.setMem (s.mem.write a v)) else .refused .noSuchHostAddress

end Sys2Proof.Machine
end

