-- ==== Sys2Proof/Machine/Operands.lean ====
section
/-! DEFINITION. What the operations compute from their operands: the shift register's window and insert, the blit's
dimensions, pixels and preconditions, and the handlers of the three option keys. -/

namespace Sys2Proof.Machine

variable {τ γ : Type}

/-- The fixed value of port 0 (40_port_read.md R100). -/
def port0Value : Byte := 0x40#8

/-- The value of the other readable ports without a register (R101, R102, R104 to R106). -/
def otherPortValue : Byte := 0x00#8

/-- The mask of a write that drives no audio trigger (41_port_write.md R122, R124, R126). -/
def noTrigger : Byte := 0x00#8

/-- The window IN 3 reads (40_port_read.md R103): `trunc_8(SR >> (8 - SA))`. -/
def shiftWindow (sr : BitVec 16) (sa : BitVec 3) : Byte := (sr >>> (8 - sa.toNat)).setWidth 8

/-- The insert of OUT 4 (41_port_write.md R124): `trunc_16((SR >> 8) | (zext_16(v) << 8))`. -/
def insertByte (sr : BitVec 16) (v : Byte) : BitVec 16 := (sr >>> 8) ||| (v.setWidth 16 <<< 8)

/-- The shift amount OUT 2 sets (R122): `v[2:0]`. -/
def shiftAmountOf (v : Byte) : BitVec 3 := v.setWidth 3

/-- The number of a depth's bits (00_scope.md R7). -/
def bitsOf : Depth → Nat
  | .one => 1
  | .eight => 8

/-- The width of the output in pixels (10_state.md R29, 43_blit.md R163). -/
def outputWidth : Orientation → Nat
  | .cocktail => 256
  | .upright => 224

/-- The height of the output in rows (R29, R163). -/
def outputHeight : Orientation → Nat
  | .cocktail => 224
  | .upright => 256

/-- The bytes an output row needs: width × depth / 8 (R163). -/
def rowBytes (o : Orientation) (depth : Depth) : Nat := outputWidth o * bitsOf depth / 8

/-- The bytes of one source line (20_memory.md R53). -/
def lineBytes : Nat := 32

/-- The source lines (R53). -/
def sourceLines : Nat := 224

/-- The source's length in bytes (R53, 43_blit.md R162): 7168. -/
def sourceLength : Nat := lineBytes * sourceLines

/-- The line pixel that lands on an upright output row: `255 - Y` (R167, R168). -/
def uprightPixel (y : Nat) : Nat := 255 - y

/-- Byte `b` of source line `r` (20_memory.md R53). -/
def sourceByte (m : Memory) (a r b : Nat) : Byte := m.read (a + lineBytes * r + b)

/-- `pix(r, k)`: pixel `k` of source line `r`, bit `k % 8` of the line's byte `k / 8` (43_blit.md R161). -/
def pix (m : Memory) (a r k : Nat) : Byte := (sourceByte m a r (k / 8) >>> (k % 8)) &&& 1

/-- The output byte of a source bit in the 8-bit modes: `pix(r, k) * FG` (R165). -/
def colourByte (fg bit : Byte) : Byte := bit * fg

/-- Eight vertically adjacent source bits in one output byte, bit `j` from line `8c + j` (R167). -/
def transposedByte (m : Memory) (a c k : Nat) : Byte :=
  (List.range 8).foldl (fun out j => out ||| (pix m a (8 * c + j) k <<< j)) 0

/-- Byte `x` of output row `y` in each of the four modes (R164, R166, R167, R168). -/
def outputByte (o : Orientation) (depth : Depth) (fg : Byte) (m : Memory) (a y x : Nat) : Byte :=
  match o, depth with
  | .cocktail, .one => sourceByte m a y x
  | .cocktail, .eight => colourByte fg (pix m a y x)
  | .upright, .one => transposedByte m a x (uprightPixel y)
  | .upright, .eight => colourByte fg (pix m a x (uprightPixel y))

/-- The byte at an offset of the written region: an output byte, or padding where the row has none (R169). -/
def regionByte (s : State τ γ) (depth : Depth) (stride a o : Nat) : Byte :=
  if o % stride < rowBytes s.orientation depth then
    outputByte s.orientation depth s.foregroundColour s.mem a (o / stride) (o % stride)
  else Config.paddingByte s.draws o

/-- The preconditions of BLIT in their order (R162): the first that fails, as the fault it raises. -/
def blitViolation (bits d n s a m h rb : Nat) : Option Fault :=
  if m ≠ sourceLength ∨ 2 ^ bits < a + m then some (.badSrc a m)
  else if s < rb then some (.badStride s rb)
  else if n < s * h ∨ 2 ^ bits < d + n then some (.dstSmall d n (s * h))
  else if a < d + s * h ∧ d < a + sourceLength then some (.overlap a d)
  else none

/-- What a key of SETOPT comes to: it is absent, its value is taken, it fails, or the spec refuses its form. -/
inductive KeyOutcome (α : Type) where
  | absent
  | accepted (v : α)
  | failed
  | ambiguous
  deriving DecidableEq, Repr

/-- A key's field afterwards: only an accepted value changes it (44_options.md R203). -/
def KeyOutcome.apply {α : Type} (old : α) : KeyOutcome α → α
  | .accepted v => v
  | .absent => old
  | .failed => old
  | .ambiguous => old

/-- The key failed. -/
def KeyOutcome.isFailed {α : Type} : KeyOutcome α → Bool
  | .failed => true
  | .absent => false
  | .accepted _ => false
  | .ambiguous => false

/-- The spec refuses the key's value. -/
def KeyOutcome.isAmbiguous {α : Type} : KeyOutcome α → Bool
  | .ambiguous => true
  | .absent => false
  | .accepted _ => false
  | .failed => false

/-- A decimal is the natural number `n`. -/
def decimalIs (x : Decimal) (n : Nat) : Bool :=
  let e : Int := x.exponent.getD 0 - x.fraction
  if 0 ≤ e then x.mantissa * 10 ^ e.toNat == n else x.mantissa == n * 10 ^ (-e).toNat

/-- `set_bpp` (44_options.md R204). -/
def bppValue : Value → KeyOutcome PixelDepth
  | .int n => if n = 1 then .accepted (.bits .one) else if n = 8 then .accepted (.bits .eight) else .failed
  | .num x => if decimalIs x 1 || decimalIs x 8 then .ambiguous else .failed
  | .str _ => .failed
  | .bool => .failed
  | .null => .failed
  | .composite => .failed

/-- `h(c)`: the value of a hex digit, of either case (R208). -/
def hexDigit (c : Char) : Option Nat :=
  let n := c.toNat
  if 0x30 ≤ n ∧ n ≤ 0x39 then some (n - 0x30)
  else if 0x41 ≤ n ∧ n ≤ 0x46 then some (n - 0x41 + 10)
  else if 0x61 ≤ n ∧ n ≤ 0x66 then some (n - 0x61 + 10)
  else none

/-- `hexvalue(t)` of a string of exactly two hex digits (R208). -/
def hexColour (t : String) : Option Byte :=
  match t.toList with
  | [c0, c1] =>
    match hexDigit c0, hexDigit c1 with
    | some h0, some h1 => some (BitVec.ofNat 8 (16 * h0 + h1))
    | _, _ => none
  | _ => none

/-- The colours with a fixed value (R206). -/
def namedColour (t : String) : Option Byte :=
  if t = "red" then some 0x80#8
  else if t = "green" then some 0x14#8
  else if t = "blue" then some 0x07#8
  else if t = "white" then some 0xFF#8
  else none

/-- `set_colour` (R206): a name, `random` with the value drawn for it (R207), or a hex string. -/
def colourValue (drawn : Byte) : Value → KeyOutcome Byte
  | .str t =>
    match namedColour t with
    | some c => .accepted c
    | none =>
      if t = "random" then .accepted drawn
      else
        match hexColour t with
        | some c => .accepted c
        | none => .failed
  | .int _ => .failed
  | .num _ => .failed
  | .bool => .failed
  | .null => .failed
  | .composite => .failed

/-- `set_orientation` (R210). -/
def orientationValue : Value → KeyOutcome Orientation
  | .str t => if t = "upright" then .accepted .upright else if t = "cocktail" then .accepted .cocktail else .failed
  | .int _ => .failed
  | .num _ => .failed
  | .bool => .failed
  | .null => .failed
  | .composite => .failed

/-- The colour the n-th draw of `random` gives: 0 to 254 (R207). -/
def drawnColour (n : Nat) : Byte := BitVec.ofNat 8 (Config.randomColour n).val

/-- The recognized keys (R200, R212). -/
def recognizedKeys : List String := ["bpp", "colour", "orientation"]

/-- A recognized key is given twice (R200). -/
def hasDuplicateKey (o : List (String × Value)) : Bool :=
  recognizedKeys.any fun key => decide (1 < o.countP fun pair => pair.1 == key)

/-- The outcome of one key: that of its handler on the value it is given, if it is given one (R200). Where no recognized key
is given twice, this is what R200's loop does in any order. -/
def keyOutcome {α : Type} (key : String) (handler : Value → KeyOutcome α) (o : List (String × Value)) : KeyOutcome α :=
  match o.lookup key with
  | some v => handler v
  | none => .absent

/-- The codes of the keys that failed (R200). -/
def failedCodes (b : KeyOutcome PixelDepth) (c : KeyOutcome Byte) (r : KeyOutcome Orientation) : List OptionCode :=
  (if b.isFailed then [.bpp] else []) ++ (if c.isFailed then [.colour] else []) ++
    (if r.isFailed then [.orientation] else [])

/-- The result code: no_error, or any one of the failing keys' codes, by a free choice (R200, R201). -/
def resultCode (choice : Nat) (failed : List OptionCode) : OptionCode :=
  failed.getD (choice % failed.length) .noError

end Sys2Proof.Machine
end

