-- ==== Sys2Proof/Machine/Blit.lean ====
section
/-! DEFINITION. The framebuffer transposer, BLIT, and the dimension queries (43_blit.md). -/

namespace Sys2Proof.Machine

variable {τ γ : Type}

/-- The blit itself, its preconditions met: the `stride × height` bytes from `d` become the output rows and their padding,
every other host byte and every field of the block stay (R160, R169). -/
def runBlit (depth : Depth) (d stride a : Nat) (s : State τ γ) : Result τ γ :=
  finish ((s.setMem (s.mem.writeRegion d (stride * outputHeight s.orientation) (regionByte s depth stride a))).afterDraw)

/-- `BLIT d, n, s, a, m` (R160): the mode, then the preconditions in their order (R162), then the blit. -/
def execBlit (d n stride a m : Nat) (s : State τ γ) : Result τ γ :=
  whenRunning s
    (match s.pixelDepth with
    | .unset => raise .badMode s
    | .bits depth =>
      match blitViolation s.config.hostAddrBits d n stride a m (outputHeight s.orientation)
          (rowBytes s.orientation depth) with
      | some f => raise f s
      | none => runBlit depth d stride a s)

/-- `QWIDTH` (R170). -/
def execQwidth (s : State τ γ) : Result τ γ := whenRunning s (answer (.dimension (outputWidth s.orientation)) s)

/-- `QHEIGHT` (R171). -/
def execQheight (s : State τ γ) : Result τ γ := whenRunning s (answer (.dimension (outputHeight s.orientation)) s)

end Sys2Proof.Machine
end

