-- ==== Sys2Proof/Machine/Flags.lean ====
section
/-! DEFINITION. The outcomes an operation computes for the host: the block has no status flags (10_state.md R26), so these
are the audio masks, the interrupt codes and the result codes, with their numbers. -/

namespace Sys2Proof.Machine

/-- The level-sensitive bit of port 3 (41_port_write.md R123). -/
def levelBits : Byte := 0x01#8

/-- The bits that rise from `old` to `new` (R125). -/
def risingEdges (old new : Byte) : Byte := new &&& ~~~old

/-- The mask of OUT 3 (R123): edges in bits 7 to 1, `new OR old` in bit 0. -/
def port3Mask (old new : Byte) : Byte :=
  (risingEdges old new &&& ~~~levelBits) ||| ((new ||| old) &&& levelBits)

/-- The mask of OUT 5 (R125): edges in all 8 bits. -/
def port5Mask (old new : Byte) : Byte := risingEdges old new

/-- The code a firing GENINT returns from a scheduler state (42_interrupt.md R140). -/
def Isr.code : Isr → InterruptCode
  | .one => .midScreen
  | .two => .vblank

/-- The other scheduler state (R140). -/
def Isr.flip : Isr → Isr
  | .one => .two
  | .two => .one

/-- The number of an interrupt code (R141). -/
def InterruptCode.number : InterruptCode → Nat
  | .none => 0
  | .midScreen => 1
  | .vblank => 2

/-- The number of a result code (44_options.md R202, D22). -/
def OptionCode.number : OptionCode → Nat
  | .noError => 0
  | .bpp => 1
  | .colour => 2
  | .orientation => 3
  | .jsonParse => 4

/-- The message of a result code: the source gives one, "Success" (R202); the others are not in the source (log 15). -/
def OptionCode.message : OptionCode → Option String
  | .noError => some "Success"
  | .bpp => none
  | .colour => none
  | .orientation => none
  | .jsonParse => none

/-- The number of a fault cause (60_exceptions.md R241, D26). -/
def Fault.code : Fault → Nat
  | .badCmd _ => 1
  | .badPort _ => 2
  | .badMode => 3
  | .badSrc _ _ => 4
  | .badStride _ _ => 5
  | .dstSmall _ _ _ => 6
  | .overlap _ _ => 7

/-- The value a reply hands to the host as a number (30_encoding.md R70). -/
def Reply.number : Reply → Nat
  | .byte v => v.toNat
  | .interrupt c => c.number
  | .option c => c.number
  | .dimension n => n

end Sys2Proof.Machine
end

