-- ==== Sys2Proof/Machine/Interrupt.lean ====
section
/-! DEFINITION. The interrupt scheduler, GENINT (42_interrupt.md). -/

namespace Sys2Proof.Machine

variable {τ γ : Type}

/-- GENINT on the scheduler (R140), for any type `τ` of times with decidable equality and any type `γ` of cycle counts (R8,
D9): a time equal to the last one gives no interrupt and keeps the scheduler; any other gives the next code, moves the
scheduler on and is recorded. The cycle count is never read. -/
def Scheduler.sample [DecidableEq τ] (n : Scheduler τ) (t : τ) (_c : γ) : InterruptCode × Scheduler τ :=
  if t = n.lastSampledTime then (.none, n) else (n.nextInterrupt.code, ⟨n.nextInterrupt.flip, t⟩)

/-- The scheduler RESET leaves (10_state.md R33, R34): ISR_ONE, and the parameter `LAST_TIME_RESET`. -/
def Scheduler.initial (lastTimeReset : τ) : Scheduler τ := ⟨.one, lastTimeReset⟩

/-- `GENINT t, c` (R140): the scheduler samples the time and the host gets the code. -/
def execGenint [DecidableEq τ] (t : τ) (c : γ) (s : State τ γ) : Result τ γ :=
  whenRunning s (answer (.interrupt (s.scheduler.sample t c).1) (s.setScheduler (s.scheduler.sample t c).2))

end Sys2Proof.Machine
end

