-- ==== Sys2Proof/Machine/Options.lean ====
section
/-! DEFINITION. The formatter's configuration, SETOPT (44_options.md). -/

namespace Sys2Proof.Machine

variable {τ γ : Type}

/-- The keys applied (R200, R203): each accepted value goes to its own field, and the code says which keys failed. -/
def applyKeys (b : KeyOutcome PixelDepth) (c : KeyOutcome Byte) (r : KeyOutcome Orientation) (s : State τ γ) : Result τ γ :=
  answer (.option (resultCode (Config.failedChoice s.draws) (failedCodes b c r)))
    (((s.setPixelDepth (b.apply s.pixelDepth)).setForegroundColour (c.apply s.foregroundColour)).setOrientation
      (r.apply s.orientation)).afterDraw

/-- SETOPT on the pairs of an object (R200): a recognized key given twice is refused (D15), and so is a `bpp` of 1.0 or 8.0
(R204, D16); otherwise every key is applied. -/
def setPairs (o : List (String × Value)) (s : State τ γ) : Result τ γ :=
  if hasDuplicateKey o then refuse s
  else if (keyOutcome "bpp" bppValue o).isAmbiguous then refuse s
  else
    applyKeys (keyOutcome "bpp" bppValue o) (keyOutcome "colour" (colourValue (drawnColour s.draws)) o)
      (keyOutcome "orientation" orientationValue o) s

/-- `SETOPT o` (R200): a parse failure changes no field and returns json_parse. -/
def execSetopt (o : Options) (s : State τ γ) : Result τ γ :=
  whenRunning s
    (match o with
    | .parseFail => answer (.option .jsonParse) s
    | .pairs pairs => setPairs pairs s)

end Sys2Proof.Machine
end

