-- ==== Sys2Proof/Machine/PortRead.lean ====
section
/-! DEFINITION. The port reads IN 0 to IN 6 (40_port_read.md). No IN writes a field of the block. -/

namespace Sys2Proof.Machine

variable {τ γ : Type}

/-- An IN: the host gets the byte and the block keeps its state (20_memory.md R57). -/
def readPort (v : Byte) (s : State τ γ) : Result τ γ := whenRunning s (answer (.byte v) s)

/-- `IN 0` (R100). -/
def execIn0 (s : State τ γ) : Result τ γ := readPort port0Value s

/-- `IN 1` (R101). -/
def execIn1 (s : State τ γ) : Result τ γ := readPort otherPortValue s

/-- `IN 2` (R102): not the shift amount. -/
def execIn2 (s : State τ γ) : Result τ γ := readPort otherPortValue s

/-- `IN 3` (R103): the window of the shift register, which does not move. -/
def execIn3 (s : State τ γ) : Result τ γ := readPort (shiftWindow s.shiftRegister s.shiftAmount) s

/-- `IN 4` (R104): not the shift register. -/
def execIn4 (s : State τ γ) : Result τ γ := readPort otherPortValue s

/-- `IN 5` (R105): not the latch. -/
def execIn5 (s : State τ γ) : Result τ γ := readPort otherPortValue s

/-- `IN 6` (R106): no watchdog acknowledgement. -/
def execIn6 (s : State τ γ) : Result τ γ := readPort otherPortValue s

end Sys2Proof.Machine
end

