-- ==== Sys2Proof/Machine/PortWrite.lean ====
section
/-! DEFINITION. The port writes OUT 2 to OUT 6 (41_port_write.md). -/

namespace Sys2Proof.Machine

variable {τ γ : Type}

/-- An OUT: the block is left in `t` and the host gets the audio mask. -/
def writePort (mask : Byte) (s t : State τ γ) : Result τ γ := whenRunning s (answer (.byte mask) t)

/-- `OUT 2, v` (R122): the shift amount. -/
def execOut2 (v : Byte) (s : State τ γ) : Result τ γ := writePort noTrigger s (s.setShiftAmount (shiftAmountOf v))

/-- `OUT 3, v` (R123): audio latch 3, whatever the mask. -/
def execOut3 (v : Byte) (s : State τ γ) : Result τ γ := writePort (port3Mask s.port3Latch v) s (s.setPort3Latch v)

/-- `OUT 4, v` (R124): a byte into the shift register. -/
def execOut4 (v : Byte) (s : State τ γ) : Result τ γ := writePort noTrigger s (s.setShiftRegister (insertByte s.shiftRegister v))

/-- `OUT 5, v` (R125): audio latch 5, whatever the mask. -/
def execOut5 (v : Byte) (s : State τ γ) : Result τ γ := writePort (port5Mask s.port5Latch v) s (s.setPort5Latch v)

/-- `OUT 6, v` (R126): the watchdog acknowledgement, a no-op; the block has no watchdog timer (D30). -/
def execOut6 (_v : Byte) (s : State τ γ) : Result τ γ := writePort noTrigger s s

end Sys2Proof.Machine
end

