-- ==== Sys2Proof/Machine/Reset.lean ====
section
/-! DEFINITION. RESET, the creation of the instance (70_reset_and_hazards.md R270). -/

namespace Sys2Proof.Machine

variable {τ γ : Type}

/-- The fields RESET writes, with the values drawn for the shift register and the shift amount (R270, R271). Host memory is
not touched. -/
def resetFields (sr : BitVec 16) (sa : BitVec 3) (s : State τ γ) : State τ γ :=
  ({ s with
    shiftRegister := sr
    shiftAmount := sa
    port3Latch := 0x00
    port5Latch := 0x00
    pixelDepth := s.config.bppReset
    orientation := .cocktail
    foregroundColour := 0xFF
    fault := none
    refused := false } : State τ γ).setScheduler (Scheduler.initial s.config.lastTimeReset)

/-- `RESET` (R270): it does not run on a faulted or refused block. -/
def execReset (s : State τ γ) : Result τ γ :=
  whenRunning s (finish (resetFields (Config.srReset s.draws) (Config.saReset s.draws) s).afterDraw)

end Sys2Proof.Machine
end

