-- ==== Sys2Proof/Machine/Dispatch.lean ====
section
/-! DEFINITION. The meaning of each operation, one arm for each constructor of Instr (30_encoding.md R70). -/

namespace Sys2Proof.Machine

def exec (i : Instr) (s : State) : Host.Outcome State Fault Refusal :=
  match i with
  | .in0 => Sys2Proof.Machine.execIn0 s
  | .in1 => Sys2Proof.Machine.execIn1 s
  | .in2 => Sys2Proof.Machine.execIn2 s
  | .in3 => Sys2Proof.Machine.execIn3 s
  | .in4 => Sys2Proof.Machine.execIn4 s
  | .in5 => Sys2Proof.Machine.execIn5 s
  | .in6 => Sys2Proof.Machine.execIn6 s
  | .out2 v => Sys2Proof.Machine.execOut2 v s
  | .out3 v => Sys2Proof.Machine.execOut3 v s
  | .out4 v => Sys2Proof.Machine.execOut4 v s
  | .out5 v => Sys2Proof.Machine.execOut5 v s
  | .out6 v => Sys2Proof.Machine.execOut6 v s
  | .genint t c => Sys2Proof.Machine.execGenint t c s
  | .blit d n r a m => Sys2Proof.Machine.execBlit d n r a m s
  | .setopt o => Sys2Proof.Machine.execSetopt o s
  | .qwidth => Sys2Proof.Machine.execQwidth s
  | .qheight => Sys2Proof.Machine.execQheight s
  | .reset => Sys2Proof.Machine.execReset s

end Sys2Proof.Machine
end

