-- ==== Sys2Proof/Machine/Step.lean ====
section
/-! DEFINITION. One step: the next action of the host, taken from `pending` (log 1). -/

namespace Sys2Proof.Machine

variable {τ γ : Type}

/-- A command runs (30_encoding.md R76): a word that spells nothing faults F_BAD_CMD, an operation on a port that does not
accept it faults F_BAD_PORT, and any other runs, by `execute`. -/
def runCommand (execute : Instr τ γ → State τ γ → Result τ γ) (c : Command τ γ) (s : State τ γ) : Result τ γ :=
  match decode c with
  | .badCmd w => raise (.badCmd w) s
  | .badPort p => raise (.badPort p) s
  | .instr i => execute i s

/-- One step, operations running by `execute`. A faulted or refused block has none (60_exceptions.md R240, R247). Otherwise
the host's oldest action is taken from `pending` and happens whole (00_scope.md R12); where the host does nothing the block
holds its state (R256). -/
def stepBy (execute : Instr τ γ → State τ γ → Result τ γ) (s : State τ γ) : Result τ γ :=
  whenRunning s
    (match s.pending with
    | [] => .next s
    | .issue c :: rest => runCommand execute c (s.setPending rest)
    | .store a v :: rest => hostStore a v (s.setPending rest))

/-- One step of the instance behind the host's interface. -/
def step (s : State) : Host.Outcome State Fault Refusal := stepBy exec s

/-- `s` with a table word, its side operands zeros, as the host's next action; what was pending follows it (log 1). -/
def State.withFetchWord (s : State) (nbits w : Nat) : State :=
  s.setPending (.issue ⟨tableWord nbits w, SideOperands.zero⟩ :: s.pending)

end Sys2Proof.Machine
end

