-- ==== Sys2Proof/Machine/BlitLoops.lean ====
section
/-! DEFINITION. The blit modes as the spec's loops of single byte accesses (43_blit.md R164, R166 to R168) and the source's
own traversal for upright 1-bit (R173). `execBlit` writes the region at once (R172); these are what it is compared with. -/

namespace Sys2Proof.Machine

/-- `for i in 0..n-1`. -/
def loop {σ : Type} (n : Nat) (body : Nat → σ → σ) (init : σ) : σ := (List.range n).foldl (fun acc i => body i acc) init

/-- `blit_c1()` (R164). -/
def loopCocktail1 (d s a : Nat) (m : Memory) : Memory :=
  loop 224 (fun r => loop 32 fun x mem => mem.write (d + r * s + x) (mem.read (a + 32 * r + x))) m

/-- `blit_c8()` (R166). -/
def loopCocktail8 (fg : Byte) (d s a : Nat) (m : Memory) : Memory :=
  loop 224 (fun r => loop 256 fun k mem => mem.write (d + r * s + k) (pix mem a r k * fg)) m

/-- `blit_u1()` (R167). -/
def loopUpright1 (d s a : Nat) (m : Memory) : Memory :=
  loop 28 (fun c => loop 256 fun y mem =>
    mem.write (d + y * s + c)
      (loop 8 (fun j out => out ||| (((mem.read (a + 32 * (8 * c + j) + (255 - y) / 8) >>> ((255 - y) % 8)) &&& 1) <<< j))
        0)) m

/-- `blit_u8()` (R168). -/
def loopUpright8 (fg : Byte) (d s a : Nat) (m : Memory) : Memory :=
  loop 224 (fun r => loop 256 fun k mem => mem.write (d + (255 - k) * s + r) (pix mem a r k * fg)) m

/-- The loops of the mode (R160). -/
def loopBlit (o : Orientation) (depth : Depth) (fg : Byte) (d s a : Nat) (m : Memory) : Memory :=
  match o, depth with
  | .cocktail, .one => loopCocktail1 d s a m
  | .cocktail, .eight => loopCocktail8 fg d s a m
  | .upright, .one => loopUpright1 d s a m
  | .upright, .eight => loopUpright8 fg d s a m

/-- The source's traversal for upright 1-bit, with its running source offset (R173). -/
def sourceTraversal (d s a : Nat) (m : Memory) : Memory :=
  (loop 28 (fun c (st : Memory × Nat) =>
    let done := loop 32 (fun b (st : Memory × Nat) =>
      (loop 8 (fun i mem =>
        mem.write (d + (255 - (8 * b + i)) * s + c)
          (loop 8 (fun j out => out ||| (((mem.read (a + (st.2 + 32 * j)) >>> i) &&& 1) <<< j)) 0)) st.1, st.2 + 1)) st
    (done.1, done.2 + 7 * 32)) (m, 0)).1

end Sys2Proof.Machine
end

