-- ==== Sys2Proof/Machine/AnyTime.lean ====
section
/-! DEFINITION. The machine over any type of times with decidable equality and any type of cycle counts, under any parameters:
the types `Time` and `Cycles` and the values LAST_TIME_RESET, BPP_RESET and HOST_ADDR_BITS are its arguments (00_scope.md R8,
D8 to D10, D29). `exec`, `step` and `core`, whose types the host's interface fixes, are its instance at tags (log 6). -/

namespace Sys2Proof.Machine

variable {τ γ : Type} [DecidableEq τ]

/-- The operation of each instruction, over any types: the meanings `exec` calls. -/
def execAt (i : Instr τ γ) (s : State τ γ) : Result τ γ :=
  match i with
  | .in0 => execIn0 s
  | .in1 => execIn1 s
  | .in2 => execIn2 s
  | .in3 => execIn3 s
  | .in4 => execIn4 s
  | .in5 => execIn5 s
  | .in6 => execIn6 s
  | .out2 v => execOut2 v s
  | .out3 v => execOut3 v s
  | .out4 v => execOut4 v s
  | .out5 v => execOut5 v s
  | .out6 v => execOut6 v s
  | .genint t c => execGenint t c s
  | .blit d n r a m => execBlit d n r a m s
  | .setopt o => execSetopt o s
  | .qwidth => execQwidth s
  | .qheight => execQheight s
  | .reset => execReset s

/-- One step, over any types. -/
def stepAt (s : State τ γ) : Result τ γ := stepBy execAt s

/-- The machine of R8: its arguments are the type of times `τ`, the type of cycle counts `γ`, and the other parameters. -/
def coreAt (γ : Type) (config : Config τ) : Host.Core where
  State := State τ γ
  Fault := Fault
  Refusal := Refusal
  step := stepAt
  reset := State.resetWith config

end Sys2Proof.Machine
end

