-- ==== Sys2Proof/Safety.lean ====
section
/-! DEFINITION. What a safe run is, and the invariant the steps keep. -/

namespace Sys2Proof.Machine

/-- A port number the reads of the block do not accept (40_port_read.md R107). -/
def badReadPort (p : Byte) : Bool := decide (7 ≤ p.toNat)

/-- A port number the writes of the block do not accept (41_port_write.md R120, R121, R127). -/
def badWritePort (p : Byte) : Bool := decide (p.toNat ≤ 1) || decide (7 ≤ p.toNat)

/-- A word that spells no operation: the four bullets of 30_encoding.md R77. -/
def illegalWord (w : Word) : Bool :=
  decide (w.cls = 0 ∨ 9 ≤ w.cls.toNat) || decide (w.rsv ≠ 0) || decide (w.data ≠ 0 ∧ w.cls ≠ 2) ||
    decide (w.port ≠ 0 ∧ 3 ≤ w.cls.toNat)

/-- The row bytes of the four modes (43_blit.md R163). -/
def legalRowBytes : List Nat := [32, 256, 28, 224]

/-- A recorded fault has the cause that 60_exceptions.md R241 gives it, under the machine's parameters. -/
def Fault.hasCause {τ : Type} (config : Config τ) : Fault → Prop
  | .badCmd w => illegalWord w = true
  | .badPort p => badReadPort p = true ∨ badWritePort p = true
  | .badMode => True
  | .badSrc a m => m ≠ 7168 ∨ 2 ^ config.hostAddrBits < a + m
  | .badStride s rb => rb ∈ legalRowBytes ∧ s < rb
  | .dstSmall d n need => n < need ∨ 2 ^ config.hostAddrBits < d + n
  | .overlap a d => a + 7168 ≤ 2 ^ config.hostAddrBits ∧ d < a + 7168

/-- The invariant: host memory is in its canonical form and lists only addresses of the host, the address width is positive
(00_scope.md R8), at most one of the two marks is set, and a recorded fault has its cause. -/
structure State.Inv {τ γ : Type} (s : State τ γ) : Prop where
  memory : s.mem.wf = true
  addresses : s.mem.within s.config.hostAddrBits = true
  addressBits : 0 < s.config.hostAddrBits
  oneMark : s.fault = none ∨ s.refused = false
  cause : ∀ f, s.fault = some f → f.hasCause s.config

/-- Buffers that meet the four preconditions of BLIT (43_blit.md R162) for an output of `h` rows of `rb` bytes. -/
structure BuffersMeet (bits d n stride a m h rb : Nat) : Prop where
  sourceLength : m = 7168
  sourceFits : a + m ≤ 2 ^ bits
  strideFits : rb ≤ stride
  destinationLength : stride * h ≤ n
  destinationFits : d + n ≤ 2 ^ bits
  apart : d + stride * h ≤ a ∨ a + 7168 ≤ d

/-- Pixel `k` of source line `r` is set: bit `k % 8` of byte `k / 8` of the line (R161). -/
def sourceBit (mem : Memory) (a r k : Nat) : Bool := (mem.read (a + 32 * r + k / 8)).getLsbD (k % 8)

/-- `c` is a hex digit of value `n`, in either case (44_options.md R208). -/
def HexDigitIs (c : Char) (n : Nat) : Prop :=
  "0123456789abcdef".toList[n]? = some c ∨ "0123456789ABCDEF".toList[n]? = some c

/-- The number a decimal stands for. -/
def decimalValue (x : Decimal) : ℚ := x.mantissa * 10 ^ (x.exponent.getD 0 - (x.fraction : Int))

/-- No recognized key is given twice (R200). -/
def NoDuplicateKey (o : List (String × Value)) : Prop :=
  ∀ key ∈ ["bpp", "colour", "orientation"], (o.filter fun pair => pair.1 == key).length ≤ 1

/-- No `bpp` value is a non-integer number equal to 1 or 8 (R204). -/
def NoAmbiguousBpp (o : List (String × Value)) : Prop :=
  ∀ x, ("bpp", Value.num x) ∈ o → decimalValue x ≠ 1 ∧ decimalValue x ≠ 8

/-- `k` steps of the machine, stopping at the first fault or refusal. -/
def run (k : Nat) (s : State) : Result := Sys2Proof.core.run k s

/-- A successful run of `k` steps: it ends in a state with neither mark set (60_exceptions.md R240, R247). -/
def SafeRun (k : Nat) (s : State) : Prop := ∃ t, run k s = .next t ∧ t.Running

/-! ### Times of any type (00_scope.md R8, D9) -/

/-- The scheduler with its time under another name. -/
def Scheduler.map {τ σ : Type} (f : τ → σ) (n : Scheduler τ) : Scheduler σ := ⟨n.nextInterrupt, f n.lastSampledTime⟩

/-- A call that reaches the scheduler: a GENINT with a time and a cycle count of any types, or RESET. -/
inductive ClockCall (τ γ : Type) where
  | genint (t : τ) (c : γ)
  | reset
  deriving DecidableEq, Repr

/-- What a call returns and the scheduler it leaves, `lastTimeReset` being the parameter `LAST_TIME_RESET`. -/
def ClockCall.apply {τ γ : Type} [DecidableEq τ] (lastTimeReset : τ) (n : Scheduler τ) :
    ClockCall τ γ → Option InterruptCode × Scheduler τ
  | .genint t c => (some (n.sample t c).1, (n.sample t c).2)
  | .reset => (none, .initial lastTimeReset)

/-- The scheduler after a list of calls. -/
def Scheduler.after {τ γ : Type} [DecidableEq τ] (lastTimeReset : τ) (n : Scheduler τ) (calls : List (ClockCall τ γ)) :
    Scheduler τ :=
  calls.foldl (fun n call => (call.apply lastTimeReset n).2) n

/-- The time a call presents. -/
def ClockCall.time {τ γ : Type} : ClockCall τ γ → Option τ
  | .genint t _ => some t
  | .reset => none

/-- Every time a list of calls can meet: the reset value, the scheduler's own, and those presented. -/
def clockTimes {τ γ : Type} (lastTimeReset : τ) (n : Scheduler τ) (calls : List (ClockCall τ γ)) : List τ :=
  lastTimeReset :: n.lastSampledTime :: calls.filterMap ClockCall.time

/-- The machine's operation for a call, with the time and the cycle count under the machine's names. -/
def ClockCall.instr {τ γ : Type} (f : τ → Time) (g : γ → Cycles) : ClockCall τ γ → Instr
  | .genint t c => .genint (f t) (g c)
  | .reset => .reset

section
variable {τ σ γ δ : Type} (f : τ → σ) (g : γ → δ)

/-- Every time and every cycle count of the side operands under other names. -/
def SideOperands.rename (o : SideOperands τ γ) : SideOperands σ δ :=
  { o with time := f o.time, cycles := g o.cycles }

/-- Every time and every cycle count of an action under other names. -/
def HostAction.rename : HostAction τ γ → HostAction σ δ
  | .issue c => .issue ⟨c.word, SideOperands.rename f g c.side⟩
  | .store a v => .store a v

/-- The parameter `LAST_TIME_RESET` under another name. -/
def Config.rename (config : Config τ) : Config σ := { config with lastTimeReset := f config.lastTimeReset }

/-- Every time and every cycle count of a state under other names: the last sampled time, `LAST_TIME_RESET`, and the
operands of the commands to come. -/
def State.rename (s : State τ γ) : State σ δ :=
  { s with
    lastSampledTime := f s.lastSampledTime
    config := Config.rename f s.config
    pending := s.pending.map (HostAction.rename f g) }

/-- The state of an outcome under other names. -/
def renameOutcome : Result τ γ → Result σ δ
  | .next s => .next (s.rename f g)
  | .fault r => .fault r
  | .refused r => .refused r

end

/-- The time an action carries. -/
def HostAction.time {τ γ : Type} : HostAction τ γ → Option τ
  | .issue c => some c.side.time
  | .store _ _ => none

/-- Every time of a state: the last sampled one, `LAST_TIME_RESET`, and those of the commands to come. -/
def State.times {τ γ : Type} (s : State τ γ) : List τ :=
  s.lastSampledTime :: s.config.lastTimeReset :: s.pending.filterMap HostAction.time

/-- `k` steps of the machine over any types, stopping at the first fault or refusal. -/
def runAt {τ γ : Type} [DecidableEq τ] (k : Nat) (s : State τ γ) : Result τ γ := (coreAt γ s.config).run k s

/-- The host's script that issues instructions in order (70_reset_and_hazards.md R273). -/
def script (l : List Instr) : List HostAction := l.map fun i => .issue (encode i)

end Sys2Proof.Machine
end

