-- ==== Sys2Proof/Certificates/Slice0/Obligations.lean ====
section
/-! DEFINITION. The statements about the block, for the provers. Each docstring names the rule of spec/ it formalises, or the
model's own choice it rests on. -/

open Sys2Proof Sys2Proof.Machine

/-! ## The command word, decoding and the step -/

/-- A step runs the decoded instruction on the state with the command taken from the host's script. The script is the
model's own field (log 1); the rest is 30_encoding.md R71 and R76. -/
def Obligations.StepRunsDecodedInstruction : Prop :=
  ∀ (s : State) (c : Command) (rest : List HostAction) (i : Instr),
    s.Running → s.pending = .issue c :: rest → decode c = .instr i →
    step s = exec i { s with pending := rest }

/-- The illegal encodings of 30_encoding.md R77, by the word's number: exactly these words spell no operation (R76, R78;
D2, D26: the word is the spec's own choice). -/
def Obligations.IllegalWordsAreExactlyBadCommands : Prop :=
  ∀ (w : Word) (o : SideOperands),
    decode ⟨w, o⟩ = .badCmd w ↔
      w.toNat / 2 ^ 24 = 0 ∨ 9 ≤ w.toNat / 2 ^ 24 ∨ w.toNat / 2 ^ 8 % 256 ≠ 0 ∨
        (w.toNat % 256 ≠ 0 ∧ w.toNat / 2 ^ 24 ≠ 2) ∨ (w.toNat / 2 ^ 16 % 256 ≠ 0 ∧ 3 ≤ w.toNat / 2 ^ 24)

/-- A word that spells no operation faults F_BAD_CMD with the word, and nothing else changes (30_encoding.md R76,
60_exceptions.md R240, R241; D23, D26). That a fault is a next state is log 4. -/
def Obligations.BadCommandFaults : Prop :=
  ∀ (s : State) (c : Command) (rest : List HostAction),
    s.Running → s.pending = .issue c :: rest → decode c = .badCmd c.word →
    step s = .next { s with pending := rest, fault := some (.badCmd c.word), reply := none }

/-- The decoder gives an instruction exactly to the words that spell a row of the opcode map (30_encoding.md R75; D2). -/
def Obligations.DecoderAcceptsExactlyTheOpcodeMap : Prop :=
  ∀ c : Command, (∃ i, decode c = .instr i) ↔ ∃ r ∈ opcodeTable, c.word &&& r.mask = r.pattern

/-- Decoding an encoded instruction gives it back with every operand (30_encoding.md R73, R74; D2). -/
def Obligations.DecodeInvertsEncode : Prop := ∀ i : Instr, decode (encode i) = .instr i

/-- A word has one spelling: encoding the decoded instruction gives the word back (30_encoding.md R78; D2). -/
def Obligations.EncodeRestoresDecodedWord : Prop :=
  ∀ (c : Command) (i : Instr), decode c = .instr i → (encode i).word = c.word

/-- Words of 95_test_vectors.md L2.8 and L3 decode to the operations named there, with any side operands. -/
def Obligations.SampleWordsDecode : Prop :=
  ∀ o : SideOperands,
    decode ⟨0x01030000, o⟩ = .instr .in3 ∧ decode ⟨0x02040012, o⟩ = .instr (.out4 0x12) ∧
    decode ⟨0x0206005A, o⟩ = .instr (.out6 0x5A) ∧ decode ⟨0x03000000, o⟩ = .instr (.genint o.time o.cycles) ∧
    decode ⟨0x04000000, o⟩ = .instr (.blit o.dstBase o.dstLength o.stride o.srcBase o.srcLength) ∧
    decode ⟨0x05000000, o⟩ = .instr (.setopt o.options) ∧ decode ⟨0x06000000, o⟩ = .instr .qwidth ∧
    decode ⟨0x07000000, o⟩ = .instr .qheight ∧ decode ⟨0x08000000, o⟩ = .instr .reset ∧
    decode ⟨0x01FF0000, o⟩ = .badPort 255 ∧ decode ⟨0x02030100, o⟩ = .badCmd 0x02030100

/-! ## Port reads (40_port_read.md) -/

/-- R100: `IN 0` is 0x01000000 and returns 0x40, whatever the state; nothing else changes. -/
def Obligations.ReadPort0ReturnsIdleInput : Prop :=
  (∀ o : SideOperands, decode ⟨0x01000000, o⟩ = .instr .in0) ∧
  ∀ s : State, s.Running → exec .in0 s = .next { s with reply := some (.byte 0x40) }

/-- R101, R102, R104, R105, R106: the words of `IN 1`, `IN 2`, `IN 4`, `IN 5` and `IN 6`, and each returns 0x00; nothing else
changes. -/
def Obligations.OtherPortsReadZero : Prop :=
  (∀ o : SideOperands, decode ⟨0x01010000, o⟩ = .instr .in1 ∧ decode ⟨0x01020000, o⟩ = .instr .in2 ∧
    decode ⟨0x01040000, o⟩ = .instr .in4 ∧ decode ⟨0x01050000, o⟩ = .instr .in5 ∧
    decode ⟨0x01060000, o⟩ = .instr .in6) ∧
  ∀ s : State, s.Running → ∀ i ∈ [Instr.in1, .in2, .in4, .in5, .in6],
    exec i s = .next { s with reply := some (.byte 0x00) }

/-- R103: `IN 3` returns `trunc_8(SR >> (8 - SA))`, which is also `trunc_8((zext_24(SR) << SA) >> 8)`; nothing else
changes, so a second read gives the same byte. -/
def Obligations.ReadPort3ReturnsShiftWindow : Prop :=
  (∀ o : SideOperands, decode ⟨0x01030000, o⟩ = .instr .in3) ∧
  ∀ s : State, s.Running → ∃ v : Byte,
    exec .in3 s = .next { s with reply := some (.byte v) } ∧
    v.toNat = s.shiftRegister.toNat / 2 ^ (8 - s.shiftAmount.toNat) % 256 ∧
    v.toNat = s.shiftRegister.toNat * 2 ^ s.shiftAmount.toNat / 2 ^ 8 % 256

/-- `IN p` with p from 7 to 255, the word 0x01pp0000, faults F_BAD_PORT(p) and changes nothing else (R107; what the fault
leaves is 60_exceptions.md R240, D23). That a fault is a next state is log 4. -/
def Obligations.ReadOfInvalidPortFaults : Prop :=
  ∀ (s : State) (p : Nat) (o : SideOperands) (rest : List HostAction),
    s.Running → 7 ≤ p → p ≤ 255 →
    s.pending = .issue ⟨BitVec.ofNat 32 (0x01000000 + p * 0x10000), o⟩ :: rest →
    step s = .next { s with pending := rest, fault := some (.badPort (BitVec.ofNat 8 p)), reply := none }

/-! ## Port writes (41_port_write.md) -/

/-- `OUT 2, v` sets the shift amount to v's low 3 bits and touches nothing else. The mask 0x00 is an inference the rule marks
as its own ("derived: from the §4.1 "0 if none" clause"). -/
def Obligations.WritePort2SetsShiftAmount : Prop :=
  ∀ (s : State) (v : Byte), s.Running →
    exec (.out2 v) s =
      .next { s with shiftAmount := BitVec.ofNat 3 (v.toNat % 8), reply := some (.byte 0x00) }

/-- R123: `OUT 3, v` is 0x020300vv; the latch takes v whatever the mask; bits 7 to 1 of the mask are 0 to 1 edges and bit 0 is
`v[0] OR old[0]`; nothing else changes. -/
def Obligations.WritePort3TriggersAudio : Prop :=
  (∀ (v : Byte) (o : SideOperands), decode ⟨BitVec.ofNat 32 (0x02030000 + v.toNat), o⟩ = .instr (.out3 v)) ∧
  ∀ (s : State) (v : Byte), s.Running → ∃ mask : Byte,
    exec (.out3 v) s = .next { s with port3Latch := v, reply := some (.byte mask) } ∧
    (mask.getLsbD 0 = (v.getLsbD 0 || s.port3Latch.getLsbD 0)) ∧
    ∀ i, 1 ≤ i → i ≤ 7 → mask.getLsbD i = (v.getLsbD i && !s.port3Latch.getLsbD i)

/-- `OUT 4, v` makes v the high byte and the old high byte the low byte, and touches nothing else. The mask 0x00 is an
inference the rule marks as its own ("derived: from the §4.1 "0 if none" clause"). -/
def Obligations.WritePort4InsertsByte : Prop :=
  ∀ (s : State) (v : Byte), s.Running →
    exec (.out4 v) s =
      .next { s with
        shiftRegister := BitVec.ofNat 16 (v.toNat * 256 + s.shiftRegister.toNat / 256), reply := some (.byte 0x00) }

/-- R125: `OUT 5, v` is 0x020500vv; the latch takes v whatever the mask; every bit of the mask is a 0 to 1 edge; nothing else
changes. -/
def Obligations.WritePort5TriggersAudio : Prop :=
  (∀ (v : Byte) (o : SideOperands), decode ⟨BitVec.ofNat 32 (0x02050000 + v.toNat), o⟩ = .instr (.out5 v)) ∧
  ∀ (s : State) (v : Byte), s.Running → ∃ mask : Byte,
    exec (.out5 v) s = .next { s with port5Latch := v, reply := some (.byte mask) } ∧
    ∀ i, i ≤ 7 → mask.getLsbD i = (v.getLsbD i && !s.port5Latch.getLsbD i)

/-- `OUT 6, v` changes nothing. The mask 0x00 is an inference the rule marks as its own, and that no watchdog timer exists is
the spec's decision D30. -/
def Obligations.WritePort6IsNoOp : Prop :=
  ∀ (s : State) (v : Byte), s.Running → exec (.out6 v) s = .next { s with reply := some (.byte 0x00) }

/-- `OUT p, v` with p from 7 to 255, the word 0x02pp00vv, faults F_BAD_PORT(p) and changes nothing else (R127; what the fault
leaves is 60_exceptions.md R240, D23). That a fault is a next state is log 4. -/
def Obligations.WriteOfInvalidPortFaults : Prop :=
  ∀ (s : State) (p : Nat) (v : Byte) (o : SideOperands) (rest : List HostAction),
    s.Running → 7 ≤ p → p ≤ 255 →
    s.pending = .issue ⟨BitVec.ofNat 32 (0x02000000 + p * 0x10000 + v.toNat), o⟩ :: rest →
    step s = .next { s with pending := rest, fault := some (.badPort (BitVec.ofNat 8 p)), reply := none }

/-- `OUT 0, v` and `OUT 1, v` fault F_BAD_PORT: the spec's decision D4 on the literal reading of "Any other port" (what the
fault leaves is 60_exceptions.md R240, D23). That a fault is a next state is log 4. -/
def Obligations.WriteOfReadOnlyPortFaults : Prop :=
  ∀ (s : State) (p : Nat) (v : Byte) (o : SideOperands) (rest : List HostAction),
    s.Running → p ≤ 1 →
    s.pending = .issue ⟨BitVec.ofNat 32 (0x02000000 + p * 0x10000 + v.toNat), o⟩ :: rest →
    step s = .next { s with pending := rest, fault := some (.badPort (BitVec.ofNat 8 p)), reply := none }

/-- A second equal write to port 5 triggers nothing, and to port 3 only the bit that repeats while held
(95_test_vectors.md L1, §8 items 1 and 2). -/
def Obligations.RepeatedAudioWriteTriggersOnlyHeldBit : Prop :=
  ∀ (s t : State) (v : Byte),
    (exec (.out5 v) s = .next t → exec (.out5 v) t = .next { t with reply := some (.byte 0x00) }) ∧
    (exec (.out3 v) s = .next t → exec (.out3 v) t = .next { t with reply := some (.byte (v &&& 0x01)) })

/-- The pseudo-operations of 30_encoding.md R81, run from the host's script (the syntax is the spec's own choice, D2; the
script is log 1). -/
def Obligations.PseudoOperationsDoWhatTheyStandFor : Prop :=
  ∀ (s : State) (hi lo k : Byte), s.Running →
    run 2 { s with pending := script (Pseudo.ldsr hi lo).expand } =
      .next { s with pending := [], shiftRegister := hi ++ lo, reply := some (.byte 0x00) } ∧
    run 2 { s with pending := script (Pseudo.shiftrd k).expand } =
      .next { s with
        pending := [], shiftAmount := BitVec.ofNat 3 (k.toNat % 8),
        reply := some (.byte (BitVec.ofNat 8 (s.shiftRegister.toNat / 2 ^ (8 - k.toNat % 8)))) } ∧
    run 4 { s with pending := script (Pseudo.shift16 hi lo k).expand } =
      .next { s with
        pending := [], shiftRegister := hi ++ lo, shiftAmount := BitVec.ofNat 3 (k.toNat % 8),
        reply := some (.byte (BitVec.ofNat 8 ((hi.toNat * 256 + lo.toNat) / 2 ^ (8 - k.toNat % 8)))) } ∧
    run 1 { s with pending := script Pseudo.quiet3.expand } =
      .next { s with pending := [], port3Latch := 0x00, reply := some (.byte (s.port3Latch &&& 0x01)) } ∧
    run 1 { s with pending := script Pseudo.quiet5.expand } =
      .next { s with pending := [], port5Latch := 0x00, reply := some (.byte 0x00) } ∧
    run 1 { s with pending := script Pseudo.kick.expand } =
      .next { s with pending := [], reply := some (.byte 0x00) }

/-- After two OUT 4 writes and one OUT 2 write, what the shift register and the shift amount held before can no longer be
observed (70_reset_and_hazards.md R280, 10_state.md R30, R31). -/
def Obligations.ShiftDrawsBecomeUnobservable : Prop :=
  ∀ (s : State) (sr : BitVec 16) (sa : BitVec 3) (lo hi v : Byte) (rest : List HostAction),
    s.pending = script [.out4 lo, .out4 hi, .out2 v] ++ rest →
    run 3 { s with shiftRegister := sr, shiftAmount := sa } = run 3 s

/-! ## The interrupt scheduler (42_interrupt.md) -/

/-- R140: `GENINT t, c` is 0x03000000; a time equal to the last sampled one returns 0 and changes no state; any other, larger
or smaller, returns the code of the scheduler's state, flips it and records t; c is never read. -/
def Obligations.GenintFiresOnChangedTime : Prop :=
  (∀ o : SideOperands, decode ⟨0x03000000, o⟩ = .instr (.genint o.time o.cycles)) ∧
  ∀ (s : State) (t : Time) (c : Cycles), s.Running →
    (t = s.lastSampledTime → exec (.genint t c) s = .next { s with reply := some (.interrupt .none) }) ∧
    (t ≠ s.lastSampledTime → s.nextInterrupt = .one →
      exec (.genint t c) s =
        .next { s with nextInterrupt := .two, lastSampledTime := t, reply := some (.interrupt .midScreen) }) ∧
    (t ≠ s.lastSampledTime → s.nextInterrupt = .two →
      exec (.genint t c) s =
        .next { s with nextInterrupt := .one, lastSampledTime := t, reply := some (.interrupt .vblank) })

/-- R141: GENINT returns 0, 1 or 2 and no other value. -/
def Obligations.GenintReturnsOneOfThreeCodes : Prop :=
  ∀ (s : State) (t : Time) (c : Cycles), s.Running →
    ∃ (u : State) (r : Reply), exec (.genint t c) s = .next u ∧ u.reply = some r ∧
      (r = .interrupt .none ∧ r.number = 0 ∨ r = .interrupt .midScreen ∧ r.number = 1 ∨
        r = .interrupt .vblank ∧ r.number = 2)

/-- Calls whose time changes every time fire every time, and the codes alternate with no limit
(60_exceptions.md R249, an inference of the spec from R140; 95_test_vectors.md §8 item 4). The script is log 1. -/
def Obligations.InterruptCodesAlternate : Prop :=
  ∀ (s : State) (calls : List (Time × Cycles)),
    s.Running → List.IsChain (· ≠ ·) (s.lastSampledTime :: calls.map Prod.fst) →
    s.pending = script (calls.map fun call => .genint call.1 call.2) →
    ∃ t, run calls.length s = .next t ∧ t.pending = [] ∧
      (calls.length % 2 = 0 → t.nextInterrupt = s.nextInterrupt) ∧
      (calls.length % 2 = 1 → t.nextInterrupt ≠ s.nextInterrupt) ∧
      (calls ≠ [] →
        t.reply = some (.interrupt (if t.nextInterrupt = .two then .midScreen else .vblank)))

/-- The parameter types of R8 are arguments: for any type `τ` of times with decidable equality and any type `γ` of cycle counts,
the machine does to its scheduler, under other names for the times, what the scheduler over `τ` does, GENINT by GENINT and
RESET by RESET, and returns the same codes; and names that keep the times of a run apart always exist. So the machine's own
types of tags lose no time type (00_scope.md R8, D9; 42_interrupt.md R140; the instance is log 6, the script log 1). -/
def Obligations.SchedulerTakesAnyTimeType : Prop :=
  ∀ (τ γ : Type) [DecidableEq τ] (r : τ) (n : Scheduler τ) (calls : List (ClockCall τ γ)) (last : ClockCall τ γ),
    (∃ f : τ → Time, Set.InjOn f { t | t ∈ clockTimes r n (calls ++ [last]) }) ∧
    ∀ (f : τ → Time) (g : γ → Cycles) (s : State),
      Set.InjOn f { t | t ∈ clockTimes r n (calls ++ [last]) } → s.Running →
      s.scheduler = n.map f → s.config.lastTimeReset = f r →
      s.pending = script ((calls ++ [last]).map (·.instr f g)) →
      ∃ u, run (calls.length + 1) s = .next u ∧ u.scheduler = (n.after r (calls ++ [last])).map f ∧
        u.reply = (last.apply r (n.after r calls)).1.map Reply.interrupt

/-- No operation reads more of a time than its equality with another, and none reads a cycle count: over any two time types
and any two types of cycle counts, a step on renamed times and cycle counts is the step, renamed, where different times of the
state keep different names (00_scope.md R8, D9 "only equality of Time is read", 42_interrupt.md R140 "c is never read"; the
script and the parameters' place are log 1 and log 7). -/
def Obligations.StepReadsOnlyEqualityOfTimes : Prop :=
  ∀ (τ γ σ δ : Type) [DecidableEq τ] [DecidableEq σ] (f : τ → σ) (g : γ → δ) (s : State τ γ),
    Set.InjOn f { t | t ∈ s.times } → stepAt (s.rename f g) = renameOutcome f g (stepAt s)

/-- The machine behind the host's interface is the machine of R8 at tags: `exec`, `step` and `run` are those over any types,
at `Time` and `Cycles` (log 6). -/
def Obligations.InterfaceRunsTheInstanceAtTags : Prop :=
  (∀ (i : Instr) (s : State), exec i s = execAt i s) ∧ (∀ s : State, step s = stepAt s) ∧
    ∀ (k : Nat) (s : State), run k s = runAt k s

/-- The machine behind the host's interface follows the machine over every time type with decidable equality, every type of
cycle counts and every parameter, for every number of steps: some renaming keeps the times of the state apart, and the run of
the renamed state is the run, renamed (R8, D9; the instance is log 6, the script log 1). -/
def Obligations.InterfaceFollowsEveryTimeType : Prop :=
  ∀ (τ γ : Type) [DecidableEq τ] (s : State τ γ) (k : Nat), ∃ (f : τ → Time) (g : γ → Cycles),
    Set.InjOn f { t | t ∈ s.times } ∧ run k (s.rename f g) = renameOutcome f g (runAt k s)

/-! ## The framebuffer transposer (43_blit.md) -/

/-- BLIT with no pixel depth set faults F_BAD_MODE before any buffer is looked at; nothing else changes (R160, R244; the
order is D25, and that a fault is a next state is log 4). -/
def Obligations.BlitWithoutDepthFaults : Prop :=
  ∀ (s : State) (d n stride a m : Nat), s.Running → s.pixelDepth = .unset →
    exec (.blit d n stride a m) s = .next { s with fault := some .badMode, reply := none }

/-- The four preconditions of BLIT in their order, the first that fails being the fault; nothing else changes and no byte is
written (R162, D13, D25; R240, D23). That a fault is a next state is log 4. -/
def Obligations.BlitChecksPreconditionsInOrder : Prop :=
  ∀ (s : State) (d n stride a m : Nat) (depth : Depth) (h rb : Nat),
    s.Running → s.pixelDepth = .bits depth →
    (s.orientation, depth, h, rb) ∈ [(Orientation.cocktail, Depth.one, 224, 32), (.cocktail, .eight, 224, 256),
      (.upright, .one, 256, 28), (.upright, .eight, 256, 224)] →
    (m ≠ 7168 ∨ 2 ^ s.config.hostAddrBits < a + m →
      exec (.blit d n stride a m) s = .next { s with fault := some (.badSrc a m), reply := none }) ∧
    (m = 7168 → a + m ≤ 2 ^ s.config.hostAddrBits → stride < rb →
      exec (.blit d n stride a m) s = .next { s with fault := some (.badStride stride rb), reply := none }) ∧
    (m = 7168 → a + m ≤ 2 ^ s.config.hostAddrBits → rb ≤ stride →
      n < stride * h ∨ 2 ^ s.config.hostAddrBits < d + n →
      exec (.blit d n stride a m) s = .next { s with fault := some (.dstSmall d n (stride * h)), reply := none }) ∧
    (m = 7168 → a + m ≤ 2 ^ s.config.hostAddrBits → rb ≤ stride → stride * h ≤ n →
      d + n ≤ 2 ^ s.config.hostAddrBits → a < d + stride * h → d < a + 7168 →
      exec (.blit d n stride a m) s = .next { s with fault := some (.overlap a d), reply := none })

/-- BLIT on buffers that meet its preconditions completes: it returns nothing, writes no field of the block, and changes no
byte of host memory outside the `stride × height` bytes from d (R160, R169; D13, D14). `draws` is the model's counter (log 9). -/
def Obligations.BlitCompletesAndKeepsTheRest : Prop :=
  ∀ (s : State) (d n stride a m : Nat) (depth : Depth),
    s.Running → s.pixelDepth = .bits depth →
    BuffersMeet s.config.hostAddrBits d n stride a m (outputHeight s.orientation) (rowBytes s.orientation depth) →
    ∃ t, exec (.blit d n stride a m) s = .next t ∧
      t = { s with mem := t.mem, reply := none, draws := s.draws + 1 } ∧
      ∀ x, x < d ∨ d + stride * outputHeight s.orientation ≤ x → t.mem.read x = s.mem.read x

/-- R164: the cocktail 1-bit blit copies 224 rows of 32 bytes, respecting the stride; with stride 32 the destination is a copy
of all 7168 bytes; the colour is not read. -/
def Obligations.CocktailOneBitCopiesRows : Prop :=
  ∀ (s : State) (d n stride a m : Nat),
    s.Running → s.orientation = .cocktail → s.pixelDepth = .bits .one →
    BuffersMeet s.config.hostAddrBits d n stride a m 224 32 →
    ∃ t, exec (.blit d n stride a m) s = .next t ∧
      (∀ r x, r < 224 → x < 32 → t.mem.read (d + r * stride + x) = s.mem.read (a + 32 * r + x)) ∧
      (stride = 32 → ∀ o, o < 7168 → t.mem.read (d + o) = s.mem.read (a + o)) ∧
      ∀ fg, exec (.blit d n stride a m) { s with foregroundColour := fg } = .next { t with foregroundColour := fg }

/-- The cocktail 8-bit blit: output pixel (X, Y) is the colour where pixel X of source line Y is set, and 0x00 elsewhere
(R165, R166; the reading of the raster is the spec's inference, the pixel order D11, the preconditions D13). -/
def Obligations.CocktailEightBitExpandsPixels : Prop :=
  ∀ (s : State) (d n stride a m : Nat),
    s.Running → s.orientation = .cocktail → s.pixelDepth = .bits .eight →
    BuffersMeet s.config.hostAddrBits d n stride a m 224 256 →
    ∃ t, exec (.blit d n stride a m) s = .next t ∧
      ∀ y x, y < 224 → x < 256 →
        t.mem.read (d + y * stride + x) = if sourceBit s.mem a y x then s.foregroundColour else 0x00

/-- The upright 1-bit blit: output pixel (X, Y), at bit X % 8 of byte X / 8 of row Y, is pixel 255 - Y of source line X
(R167, D11, D12, D13). -/
def Obligations.UprightOneBitRotatesPixels : Prop :=
  ∀ (s : State) (d n stride a m : Nat),
    s.Running → s.orientation = .upright → s.pixelDepth = .bits .one →
    BuffersMeet s.config.hostAddrBits d n stride a m 256 28 →
    ∃ t, exec (.blit d n stride a m) s = .next t ∧
      ∀ y x, y < 256 → x < 224 →
        (t.mem.read (d + y * stride + x / 8)).getLsbD (x % 8) = sourceBit s.mem a x (255 - y)

/-- The upright 8-bit blit: output pixel (X, Y) is the colour where pixel 255 - Y of source line X is set, and 0x00
elsewhere (R168, D11, D12, D13). -/
def Obligations.UprightEightBitRotatesPixels : Prop :=
  ∀ (s : State) (d n stride a m : Nat),
    s.Running → s.orientation = .upright → s.pixelDepth = .bits .eight →
    BuffersMeet s.config.hostAddrBits d n stride a m 256 224 →
    ∃ t, exec (.blit d n stride a m) s = .next t ∧
      ∀ y x, y < 256 → x < 224 →
        t.mem.read (d + y * stride + x) = if sourceBit s.mem a x (255 - y) then s.foregroundColour else 0x00

/-- The model writes the region at once; the spec's loops of single byte accesses give every output byte and every byte
outside the region the same value (R164, R166, R167, R168; that order cannot be observed is the inference R172). -/
def Obligations.BlitRefinesTheLoops : Prop :=
  ∀ (s : State) (d n stride a m : Nat) (depth : Depth),
    s.Running → s.mem.wf = true → s.pixelDepth = .bits depth →
    BuffersMeet s.config.hostAddrBits d n stride a m (outputHeight s.orientation) (rowBytes s.orientation depth) →
    ∃ t, exec (.blit d n stride a m) s = .next t ∧
      (∀ y x, y < outputHeight s.orientation → x < rowBytes s.orientation depth →
        t.mem.read (d + y * stride + x) =
          (loopBlit s.orientation depth s.foregroundColour d stride a s.mem).read (d + y * stride + x)) ∧
      ∀ x, x < d ∨ d + stride * outputHeight s.orientation ≤ x →
        t.mem.read x = (loopBlit s.orientation depth s.foregroundColour d stride a s.mem).read x

/-- The source's own traversal for upright 1-bit, with its running offset and its skip of 7 rows, gives the mapping of R167
(R173, the spec's inference). -/
def Obligations.SourceTraversalGivesUprightMapping : Prop :=
  ∀ (mem : Memory) (d stride a : Nat),
    mem.wf = true → 28 ≤ stride → (d + stride * 256 ≤ a ∨ a + 7168 ≤ d) →
    ∀ x, (sourceTraversal d stride a mem).read x = (loopUpright1 d stride a mem).read x

/-- Within one orientation the 1-bit and the 8-bit blit show the same image, with any strides and destinations that meet the
preconditions (R175, the spec's inference). -/
def Obligations.DepthsShowTheSameImage : Prop :=
  ∀ (s t1 t8 : State) (d1 n1 s1 d8 n8 s8 a m y x : Nat),
    exec (.blit d1 n1 s1 a m) { s with pixelDepth := .bits .one } = .next t1 → t1.fault = none →
    exec (.blit d8 n8 s8 a m) { s with pixelDepth := .bits .eight } = .next t8 → t8.fault = none →
    y < outputHeight s.orientation → x < outputWidth s.orientation →
    t8.mem.read (d8 + y * s8 + x) =
      if (t1.mem.read (d1 + y * s1 + x / 8)).getLsbD (x % 8) then s.foregroundColour else 0x00

/-- R170: `QWIDTH` is 0x06000000 and returns 256 in cocktail orientation and 224 in upright, whatever the depth; nothing else
changes. -/
def Obligations.QwidthReturnsPixelWidth : Prop :=
  (∀ o : SideOperands, decode ⟨0x06000000, o⟩ = .instr .qwidth) ∧
  ∀ s : State, s.Running →
    (s.orientation = .cocktail → exec .qwidth s = .next { s with reply := some (.dimension 256) }) ∧
    (s.orientation = .upright → exec .qwidth s = .next { s with reply := some (.dimension 224) })

/-- R171: `QHEIGHT` is 0x07000000 and returns 224 in cocktail orientation and 256 in upright, whatever the depth; nothing else
changes; the two dimensions' product is always 57344. -/
def Obligations.QheightReturnsPixelHeight : Prop :=
  (∀ o : SideOperands, decode ⟨0x07000000, o⟩ = .instr .qheight) ∧
  ∀ s : State, s.Running →
    (s.orientation = .cocktail → exec .qheight s = .next { s with reply := some (.dimension 224) }) ∧
    (s.orientation = .upright → exec .qheight s = .next { s with reply := some (.dimension 256) }) ∧
    ∃ w h : Nat, exec .qwidth s = .next { s with reply := some (.dimension w) } ∧
      exec .qheight s = .next { s with reply := some (.dimension h) } ∧ w * h = 57344

/-- 10_state.md R29: the dimensions the queries return are 256 × 224 or 224 × 256 by the orientation alone, and their product
is 57344. -/
def Obligations.DimensionsDependOnOrientationOnly : Prop :=
  ∀ s : State, s.Running → ∃ w h : Nat, w * h = 57344 ∧
    (s.orientation = .cocktail → w = 256 ∧ h = 224) ∧ (s.orientation = .upright → w = 224 ∧ h = 256) ∧
    ∀ p : PixelDepth,
      exec .qwidth { s with pixelDepth := p } = .next { s with pixelDepth := p, reply := some (.dimension w) } ∧
      exec .qheight { s with pixelDepth := p } = .next { s with pixelDepth := p, reply := some (.dimension h) }

/-! ## The formatter's configuration (44_options.md) -/

/-- A parse failure returns json_parse and changes no field (R200, R202; D15, D22). -/
def Obligations.SetoptParseFailureChangesNothing : Prop :=
  ∀ s : State, s.Running →
    exec (.setopt .parseFail) s = .next { s with reply := some (.option .jsonParse) } ∧
    (Reply.option .jsonParse).number = 4

/-- The two refusals: a recognized key given twice, and a `bpp` that is a non-integer number equal to 1 or 8, set the mark and
change nothing else (R200, R204, 60_exceptions.md R247; D15, D16; that a refusal is a next state is log 5). -/
def Obligations.SetoptRefusesUnsettledForms : Prop :=
  ∀ (s : State) (o : List (String × Value)), s.Running →
    (¬NoDuplicateKey o ∨ (NoDuplicateKey o ∧ ¬NoAmbiguousBpp o)) →
    exec (.setopt (.pairs o)) s = .next { s with refused := true, reply := none }

/-- The key `bpp` alone: the integers 1 and 8 set the depth and return 0; every other value that is not refused returns code 1
and leaves the depth (R202, R203, R204; D16, D19, D22). `draws` is the model's counter (log 9). -/
def Obligations.SetoptBppKey : Prop :=
  ∀ (s : State) (v : Value), s.Running → NoAmbiguousBpp [("bpp", v)] →
    (v = .int 1 → exec (.setopt (.pairs [("bpp", v)])) s =
      .next { s with pixelDepth := .bits .one, reply := some (.option .noError), draws := s.draws + 1 }) ∧
    (v = .int 8 → exec (.setopt (.pairs [("bpp", v)])) s =
      .next { s with pixelDepth := .bits .eight, reply := some (.option .noError), draws := s.draws + 1 }) ∧
    (v ≠ .int 1 → v ≠ .int 8 → exec (.setopt (.pairs [("bpp", v)])) s =
      .next { s with reply := some (.option .bpp), draws := s.draws + 1 })

/-- The key `colour` alone: the four names, `random` (any value but 0xFF), a string of exactly two hex digits of either case;
everything else returns code 2 and leaves the colour (R202, R203, R206 to R209; D17 to D19, D21, D22). `draws` is the model's
counter (log 9). -/
def Obligations.SetoptColourKey : Prop :=
  ∀ s : State, s.Running →
    (∀ name c, (name, c) ∈ [("red", 0x80#8), ("green", 0x14), ("blue", 0x07), ("white", 0xFF)] →
      exec (.setopt (.pairs [("colour", .str name)])) s =
        .next { s with foregroundColour := c, reply := some (.option .noError), draws := s.draws + 1 }) ∧
    (∃ c : Byte, c ≠ 0xFF ∧ exec (.setopt (.pairs [("colour", .str "random")])) s =
      .next { s with foregroundColour := c, reply := some (.option .noError), draws := s.draws + 1 }) ∧
    (∀ c0 c1 h0 h1, HexDigitIs c0 h0 → HexDigitIs c1 h1 →
      exec (.setopt (.pairs [("colour", .str (String.ofList [c0, c1]))])) s =
        .next { s with
          foregroundColour := BitVec.ofNat 8 (16 * h0 + h1), reply := some (.option .noError), draws := s.draws + 1 }) ∧
    ∀ v : Value, (∀ name ∈ ["red", "green", "blue", "white", "random"], v ≠ .str name) →
      (∀ c0 c1 h0 h1, HexDigitIs c0 h0 → HexDigitIs c1 h1 → v ≠ .str (String.ofList [c0, c1])) →
      exec (.setopt (.pairs [("colour", v)])) s =
        .next { s with reply := some (.option .colour), draws := s.draws + 1 }

/-- The key `orientation` alone: the two exact strings set it and return 0; everything else returns code 3 and leaves it
(R202, R203, R210; D18, D19, D22). `draws` is the model's counter (log 9). -/
def Obligations.SetoptOrientationKey : Prop :=
  ∀ (s : State) (v : Value), s.Running →
    (v = .str "upright" → exec (.setopt (.pairs [("orientation", v)])) s =
      .next { s with orientation := .upright, reply := some (.option .noError), draws := s.draws + 1 }) ∧
    (v = .str "cocktail" → exec (.setopt (.pairs [("orientation", v)])) s =
      .next { s with orientation := .cocktail, reply := some (.option .noError), draws := s.draws + 1 }) ∧
    (v ≠ .str "upright" → v ≠ .str "cocktail" → exec (.setopt (.pairs [("orientation", v)])) s =
      .next { s with reply := some (.option .orientation), draws := s.draws + 1 })

/-- SETOPT on any list with no refused form completes and touches only the three configuration registers. Each key does to
its own field what it does alone, whatever the other keys come to, and an absent key leaves its field. The code is no_error
when every key alone gives no_error, and otherwise a code some key alone gives (R200, R201, R203, R213; D15, D19, D20).
A `random` colour is a free value, never 0xFF (log 11). -/
def Obligations.SetoptAppliesEachKeyIndependently : Prop :=
  ∀ (s : State) (o : List (String × Value)), s.Running → NoDuplicateKey o → NoAmbiguousBpp o →
    ∃ (t : State) (code : OptionCode), exec (.setopt (.pairs o)) s = .next t ∧
      t = { s with
        pixelDepth := t.pixelDepth, foregroundColour := t.foregroundColour, orientation := t.orientation,
        reply := some (.option code), draws := s.draws + 1 } ∧
      (∀ v, ("bpp", v) ∈ o → ∃ u, exec (.setopt (.pairs [("bpp", v)])) s = .next u ∧ t.pixelDepth = u.pixelDepth) ∧
      ((∀ v, ("bpp", v) ∉ o) → t.pixelDepth = s.pixelDepth) ∧
      (∀ v, ("colour", v) ∈ o → v ≠ .str "random" →
        ∃ u, exec (.setopt (.pairs [("colour", v)])) s = .next u ∧ t.foregroundColour = u.foregroundColour) ∧
      (("colour", Value.str "random") ∈ o → t.foregroundColour ≠ 0xFF) ∧
      ((∀ v, ("colour", v) ∉ o) → t.foregroundColour = s.foregroundColour) ∧
      (∀ v, ("orientation", v) ∈ o →
        ∃ u, exec (.setopt (.pairs [("orientation", v)])) s = .next u ∧ t.orientation = u.orientation) ∧
      ((∀ v, ("orientation", v) ∉ o) → t.orientation = s.orientation) ∧
      (code = .noError ↔ ∀ pair ∈ o, ∃ u,
        exec (.setopt (.pairs [pair])) s = .next u ∧ u.reply = some (.option .noError)) ∧
      (code ≠ .noError → ∃ pair ∈ o, ∃ u,
        exec (.setopt (.pairs [pair])) s = .next u ∧ u.reply = some (.option code))

/-- Keys other than the three exact strings are ignored: no field of the block changes and the result is 0 (R212; the
inference the rule marks is that matching is exact). `draws` is the model's counter (log 9). -/
def Obligations.SetoptIgnoresUnrecognizedKeys : Prop :=
  ∀ (s : State) (o : List (String × Value)), s.Running →
    (∀ pair ∈ o, pair.1 ≠ "bpp" ∧ pair.1 ≠ "colour" ∧ pair.1 ≠ "orientation") →
    exec (.setopt (.pairs o)) s = .next { s with reply := some (.option .noError), draws := s.draws + 1 }

/-- The order of the pairs does not matter, refused lists included (R200 "in any order", R201; the free choice of the code is
log 13). -/
def Obligations.SetoptOrderDoesNotMatter : Prop :=
  ∀ (s : State) (o o' : List (String × Value)), List.Perm o o' →
    exec (.setopt (.pairs o)) s = exec (.setopt (.pairs o')) s

/-! ## Reset (70_reset_and_hazards.md) -/

/-- RESET completes and writes the fields of R270 as R271 gives them; the shift register and the shift amount are free values
(log 9), the latches' zero is D7, and the two parameters stand in `config` (log 7). Host memory is not touched. -/
def Obligations.ResetWritesItsFields : Prop :=
  ∀ s : State, s.Running → ∃ (sr : BitVec 16) (sa : BitVec 3),
    exec .reset s =
      .next { s with
        shiftRegister := sr, shiftAmount := sa, port3Latch := 0x00, port5Latch := 0x00, nextInterrupt := .one,
        lastSampledTime := s.config.lastTimeReset, pixelDepth := s.config.bppReset, orientation := .cocktail,
        foregroundColour := 0xFF, reply := none, draws := s.draws + 1 }

/-- R33, R36, R37: right after reset the scheduler is at ISR_ONE, the orientation is COCKTAIL and the colour is 0xFF; so it is
in `State.reset` and after the operation RESET. -/
def Obligations.ResetDefaultsOfTheSource : Prop :=
  (State.reset.nextInterrupt = .one ∧ State.reset.orientation = .cocktail ∧ State.reset.foregroundColour = 0xFF) ∧
  ∀ s : State, s.Running → ∃ t, exec .reset s = .next t ∧
    t.nextInterrupt = .one ∧ t.orientation = .cocktail ∧ t.foregroundColour = 0xFF

/-! ## The whole machine -/

/-- A block whose fault mark is set takes no step, RESET included, and neither does one whose refusal mark is set
(60_exceptions.md R240, R246, R247; D23). That the outcome names the recorded fault is log 4, the refusal's name log 5. -/
def Obligations.MarkedBlockTakesNoStep : Prop :=
  ∀ (s : State) (i : Instr),
    (∀ f, s.fault = some f → exec i s = .fault f ∧ step s = .fault f) ∧
    (s.fault = none → s.refused = true → exec i s = .refused .blockRefused ∧ step s = .refused .blockRefused)

/-- A step that sets a mark changes nothing else of the block or of host memory and returns nothing to the host
(60_exceptions.md R240, R245, R247; D23). That a fault and a refusal are next states is log 4 and log 5. -/
def Obligations.FaultingStepChangesNothingElse : Prop :=
  ∀ s t : State, step s = .next t →
    (∀ f, t.fault = some f → t = { s with pending := s.pending.tail, fault := some f, reply := none }) ∧
    (t.refused = true → t = { s with pending := s.pending.tail, refused := true, reply := none })

/-- R243: IN 0 to 6, OUT 2 to 6, GENINT, SETOPT, QWIDTH, QHEIGHT and RESET never fault. -/
def Obligations.OnlyBlitCanFault : Prop :=
  ∀ (s : State) (i : Instr), s.Running → (∀ d n stride a m, i ≠ .blit d n stride a m) →
    ∃ t, exec i s = .next t ∧ t.fault = none

/-- Host memory is touched only by BLIT (20_memory.md R52). Every other operation leaves it and does the same whatever it
holds. BLIT reads only `src`: two memories that agree on it give the same output bytes. It changes no byte outside its
region (43_blit.md R169), and every field of the block is as before (R160), so no copy of a buffer is kept; `draws` is the
model's counter (log 9). -/
def Obligations.OnlyBlitTouchesHostMemory : Prop :=
  (∀ (s t : State) (i : Instr) (mem : Memory), (∀ d n stride a m, i ≠ .blit d n stride a m) →
    exec i s = .next t → t.mem = s.mem ∧ exec i { s with mem := mem } = .next { t with mem := mem }) ∧
  ∀ (s t : State) (d n stride a m : Nat) (mem : Memory) (depth : Depth),
    exec (.blit d n stride a m) s = .next t → t.fault = none → s.pixelDepth = .bits depth →
    (∀ o, o < 7168 → mem.read (a + o) = s.mem.read (a + o)) →
    t = { s with mem := t.mem, reply := none, draws := s.draws + 1 } ∧
    (∀ x, x < d ∨ d + stride * outputHeight s.orientation ≤ x → t.mem.read x = s.mem.read x) ∧
    ∃ t', exec (.blit d n stride a m) { s with mem := mem } = .next t' ∧
      ∀ y x, y < outputHeight s.orientation → x < rowBytes s.orientation depth →
        t'.mem.read (d + y * stride + x) = t.mem.read (d + y * stride + x)

/-- The writers of 10_state.md R20's table: a field changes only by the operations that write it, and no operation changes the
parameters (log 7) or the host's script (log 1). -/
def Obligations.FieldsChangeOnlyByTheirWriters : Prop :=
  ∀ (s t : State) (i : Instr), exec i s = .next t → i ≠ .reset →
    (t.shiftRegister ≠ s.shiftRegister → ∃ v, i = .out4 v) ∧
    (t.shiftAmount ≠ s.shiftAmount → ∃ v, i = .out2 v) ∧
    (t.port3Latch ≠ s.port3Latch → ∃ v, i = .out3 v) ∧
    (t.port5Latch ≠ s.port5Latch → ∃ v, i = .out5 v) ∧
    (t.nextInterrupt ≠ s.nextInterrupt → ∃ c, i = .genint t.lastSampledTime c ∧ t.lastSampledTime ≠ s.lastSampledTime) ∧
    (t.lastSampledTime ≠ s.lastSampledTime → ∃ c, i = .genint t.lastSampledTime c) ∧
    (t.pixelDepth ≠ s.pixelDepth → ∃ o, i = .setopt o) ∧
    (t.orientation ≠ s.orientation → ∃ o, i = .setopt o) ∧
    (t.foregroundColour ≠ s.foregroundColour → ∃ o, i = .setopt o) ∧
    (t.pixelDepth = .unset → s.pixelDepth = .unset) ∧
    t.config = s.config ∧ t.pending = s.pending

/-- Every step keeps the invariant `State.Inv`: canonical host memory within the host's address space, at most one mark, and
a recorded fault with the cause of 60_exceptions.md R241. -/
def Obligations.StepKeepsInv : Prop := ∀ s t : State, s.Inv → step s = .next t → t.Inv

/-- The invariant holds of the state after reset. -/
def Obligations.ResetStateHasInv : Prop := State.reset.Inv

/-- The host's other moves, which are the model's own (log 1, log 2): with nothing pending the block holds its state
(60_exceptions.md R256); a store into host memory changes that one byte; an address outside the host's space is refused. -/
def Obligations.HostMovesBetweenOperations : Prop :=
  ∀ (s : State), s.Running →
    (s.pending = [] → step s = .next s) ∧
    (∀ x v rest, s.pending = .store x v :: rest → s.mem.wf = true → x < 2 ^ s.config.hostAddrBits →
      ∃ t, step s = .next t ∧ t = { s with pending := rest, mem := t.mem } ∧
        ∀ y, t.mem.read y = if y = x then v else s.mem.read y) ∧
    (∀ x v rest, s.pending = .store x v :: rest → 2 ^ s.config.hostAddrBits ≤ x →
      step s = .refused .noSuchHostAddress)
end

