-- ==== Sys2Proof/Laws/State.lean ====
section
/-! SUPPORT. One lemma for each field after each named update of the state: the updated field holds the new value, every other
field stays. -/

namespace Sys2Proof.Machine

variable {τ γ : Type}

@[simp] theorem State.setShiftRegister_shiftRegister (s : State τ γ) (v : BitVec 16) : (s.setShiftRegister v).shiftRegister = v := rfl
@[simp] theorem State.setShiftRegister_shiftAmount (s : State τ γ) (v : BitVec 16) : (s.setShiftRegister v).shiftAmount = s.shiftAmount := rfl
@[simp] theorem State.setShiftRegister_port3Latch (s : State τ γ) (v : BitVec 16) : (s.setShiftRegister v).port3Latch = s.port3Latch := rfl
@[simp] theorem State.setShiftRegister_port5Latch (s : State τ γ) (v : BitVec 16) : (s.setShiftRegister v).port5Latch = s.port5Latch := rfl
@[simp] theorem State.setShiftRegister_nextInterrupt (s : State τ γ) (v : BitVec 16) : (s.setShiftRegister v).nextInterrupt = s.nextInterrupt := rfl
@[simp] theorem State.setShiftRegister_lastSampledTime (s : State τ γ) (v : BitVec 16) : (s.setShiftRegister v).lastSampledTime = s.lastSampledTime := rfl
@[simp] theorem State.setShiftRegister_pixelDepth (s : State τ γ) (v : BitVec 16) : (s.setShiftRegister v).pixelDepth = s.pixelDepth := rfl
@[simp] theorem State.setShiftRegister_orientation (s : State τ γ) (v : BitVec 16) : (s.setShiftRegister v).orientation = s.orientation := rfl
@[simp] theorem State.setShiftRegister_foregroundColour (s : State τ γ) (v : BitVec 16) : (s.setShiftRegister v).foregroundColour = s.foregroundColour := rfl
@[simp] theorem State.setShiftRegister_fault (s : State τ γ) (v : BitVec 16) : (s.setShiftRegister v).fault = s.fault := rfl
@[simp] theorem State.setShiftRegister_refused (s : State τ γ) (v : BitVec 16) : (s.setShiftRegister v).refused = s.refused := rfl
@[simp] theorem State.setShiftRegister_mem (s : State τ γ) (v : BitVec 16) : (s.setShiftRegister v).mem = s.mem := rfl
@[simp] theorem State.setShiftRegister_config (s : State τ γ) (v : BitVec 16) : (s.setShiftRegister v).config = s.config := rfl
@[simp] theorem State.setShiftRegister_pending (s : State τ γ) (v : BitVec 16) : (s.setShiftRegister v).pending = s.pending := rfl
@[simp] theorem State.setShiftRegister_reply (s : State τ γ) (v : BitVec 16) : (s.setShiftRegister v).reply = s.reply := rfl
@[simp] theorem State.setShiftRegister_draws (s : State τ γ) (v : BitVec 16) : (s.setShiftRegister v).draws = s.draws := rfl

@[simp] theorem State.setShiftAmount_shiftRegister (s : State τ γ) (v : BitVec 3) : (s.setShiftAmount v).shiftRegister = s.shiftRegister := rfl
@[simp] theorem State.setShiftAmount_shiftAmount (s : State τ γ) (v : BitVec 3) : (s.setShiftAmount v).shiftAmount = v := rfl
@[simp] theorem State.setShiftAmount_port3Latch (s : State τ γ) (v : BitVec 3) : (s.setShiftAmount v).port3Latch = s.port3Latch := rfl
@[simp] theorem State.setShiftAmount_port5Latch (s : State τ γ) (v : BitVec 3) : (s.setShiftAmount v).port5Latch = s.port5Latch := rfl
@[simp] theorem State.setShiftAmount_nextInterrupt (s : State τ γ) (v : BitVec 3) : (s.setShiftAmount v).nextInterrupt = s.nextInterrupt := rfl
@[simp] theorem State.setShiftAmount_lastSampledTime (s : State τ γ) (v : BitVec 3) : (s.setShiftAmount v).lastSampledTime = s.lastSampledTime := rfl
@[simp] theorem State.setShiftAmount_pixelDepth (s : State τ γ) (v : BitVec 3) : (s.setShiftAmount v).pixelDepth = s.pixelDepth := rfl
@[simp] theorem State.setShiftAmount_orientation (s : State τ γ) (v : BitVec 3) : (s.setShiftAmount v).orientation = s.orientation := rfl
@[simp] theorem State.setShiftAmount_foregroundColour (s : State τ γ) (v : BitVec 3) : (s.setShiftAmount v).foregroundColour = s.foregroundColour := rfl
@[simp] theorem State.setShiftAmount_fault (s : State τ γ) (v : BitVec 3) : (s.setShiftAmount v).fault = s.fault := rfl
@[simp] theorem State.setShiftAmount_refused (s : State τ γ) (v : BitVec 3) : (s.setShiftAmount v).refused = s.refused := rfl
@[simp] theorem State.setShiftAmount_mem (s : State τ γ) (v : BitVec 3) : (s.setShiftAmount v).mem = s.mem := rfl
@[simp] theorem State.setShiftAmount_config (s : State τ γ) (v : BitVec 3) : (s.setShiftAmount v).config = s.config := rfl
@[simp] theorem State.setShiftAmount_pending (s : State τ γ) (v : BitVec 3) : (s.setShiftAmount v).pending = s.pending := rfl
@[simp] theorem State.setShiftAmount_reply (s : State τ γ) (v : BitVec 3) : (s.setShiftAmount v).reply = s.reply := rfl
@[simp] theorem State.setShiftAmount_draws (s : State τ γ) (v : BitVec 3) : (s.setShiftAmount v).draws = s.draws := rfl

@[simp] theorem State.setPort3Latch_shiftRegister (s : State τ γ) (v : Byte) : (s.setPort3Latch v).shiftRegister = s.shiftRegister := rfl
@[simp] theorem State.setPort3Latch_shiftAmount (s : State τ γ) (v : Byte) : (s.setPort3Latch v).shiftAmount = s.shiftAmount := rfl
@[simp] theorem State.setPort3Latch_port3Latch (s : State τ γ) (v : Byte) : (s.setPort3Latch v).port3Latch = v := rfl
@[simp] theorem State.setPort3Latch_port5Latch (s : State τ γ) (v : Byte) : (s.setPort3Latch v).port5Latch = s.port5Latch := rfl
@[simp] theorem State.setPort3Latch_nextInterrupt (s : State τ γ) (v : Byte) : (s.setPort3Latch v).nextInterrupt = s.nextInterrupt := rfl
@[simp] theorem State.setPort3Latch_lastSampledTime (s : State τ γ) (v : Byte) : (s.setPort3Latch v).lastSampledTime = s.lastSampledTime := rfl
@[simp] theorem State.setPort3Latch_pixelDepth (s : State τ γ) (v : Byte) : (s.setPort3Latch v).pixelDepth = s.pixelDepth := rfl
@[simp] theorem State.setPort3Latch_orientation (s : State τ γ) (v : Byte) : (s.setPort3Latch v).orientation = s.orientation := rfl
@[simp] theorem State.setPort3Latch_foregroundColour (s : State τ γ) (v : Byte) : (s.setPort3Latch v).foregroundColour = s.foregroundColour := rfl
@[simp] theorem State.setPort3Latch_fault (s : State τ γ) (v : Byte) : (s.setPort3Latch v).fault = s.fault := rfl
@[simp] theorem State.setPort3Latch_refused (s : State τ γ) (v : Byte) : (s.setPort3Latch v).refused = s.refused := rfl
@[simp] theorem State.setPort3Latch_mem (s : State τ γ) (v : Byte) : (s.setPort3Latch v).mem = s.mem := rfl
@[simp] theorem State.setPort3Latch_config (s : State τ γ) (v : Byte) : (s.setPort3Latch v).config = s.config := rfl
@[simp] theorem State.setPort3Latch_pending (s : State τ γ) (v : Byte) : (s.setPort3Latch v).pending = s.pending := rfl
@[simp] theorem State.setPort3Latch_reply (s : State τ γ) (v : Byte) : (s.setPort3Latch v).reply = s.reply := rfl
@[simp] theorem State.setPort3Latch_draws (s : State τ γ) (v : Byte) : (s.setPort3Latch v).draws = s.draws := rfl

@[simp] theorem State.setPort5Latch_shiftRegister (s : State τ γ) (v : Byte) : (s.setPort5Latch v).shiftRegister = s.shiftRegister := rfl
@[simp] theorem State.setPort5Latch_shiftAmount (s : State τ γ) (v : Byte) : (s.setPort5Latch v).shiftAmount = s.shiftAmount := rfl
@[simp] theorem State.setPort5Latch_port3Latch (s : State τ γ) (v : Byte) : (s.setPort5Latch v).port3Latch = s.port3Latch := rfl
@[simp] theorem State.setPort5Latch_port5Latch (s : State τ γ) (v : Byte) : (s.setPort5Latch v).port5Latch = v := rfl
@[simp] theorem State.setPort5Latch_nextInterrupt (s : State τ γ) (v : Byte) : (s.setPort5Latch v).nextInterrupt = s.nextInterrupt := rfl
@[simp] theorem State.setPort5Latch_lastSampledTime (s : State τ γ) (v : Byte) : (s.setPort5Latch v).lastSampledTime = s.lastSampledTime := rfl
@[simp] theorem State.setPort5Latch_pixelDepth (s : State τ γ) (v : Byte) : (s.setPort5Latch v).pixelDepth = s.pixelDepth := rfl
@[simp] theorem State.setPort5Latch_orientation (s : State τ γ) (v : Byte) : (s.setPort5Latch v).orientation = s.orientation := rfl
@[simp] theorem State.setPort5Latch_foregroundColour (s : State τ γ) (v : Byte) : (s.setPort5Latch v).foregroundColour = s.foregroundColour := rfl
@[simp] theorem State.setPort5Latch_fault (s : State τ γ) (v : Byte) : (s.setPort5Latch v).fault = s.fault := rfl
@[simp] theorem State.setPort5Latch_refused (s : State τ γ) (v : Byte) : (s.setPort5Latch v).refused = s.refused := rfl
@[simp] theorem State.setPort5Latch_mem (s : State τ γ) (v : Byte) : (s.setPort5Latch v).mem = s.mem := rfl
@[simp] theorem State.setPort5Latch_config (s : State τ γ) (v : Byte) : (s.setPort5Latch v).config = s.config := rfl
@[simp] theorem State.setPort5Latch_pending (s : State τ γ) (v : Byte) : (s.setPort5Latch v).pending = s.pending := rfl
@[simp] theorem State.setPort5Latch_reply (s : State τ γ) (v : Byte) : (s.setPort5Latch v).reply = s.reply := rfl
@[simp] theorem State.setPort5Latch_draws (s : State τ γ) (v : Byte) : (s.setPort5Latch v).draws = s.draws := rfl

@[simp] theorem State.setNextInterrupt_shiftRegister (s : State τ γ) (v : Isr) : (s.setNextInterrupt v).shiftRegister = s.shiftRegister := rfl
@[simp] theorem State.setNextInterrupt_shiftAmount (s : State τ γ) (v : Isr) : (s.setNextInterrupt v).shiftAmount = s.shiftAmount := rfl
@[simp] theorem State.setNextInterrupt_port3Latch (s : State τ γ) (v : Isr) : (s.setNextInterrupt v).port3Latch = s.port3Latch := rfl
@[simp] theorem State.setNextInterrupt_port5Latch (s : State τ γ) (v : Isr) : (s.setNextInterrupt v).port5Latch = s.port5Latch := rfl
@[simp] theorem State.setNextInterrupt_nextInterrupt (s : State τ γ) (v : Isr) : (s.setNextInterrupt v).nextInterrupt = v := rfl
@[simp] theorem State.setNextInterrupt_lastSampledTime (s : State τ γ) (v : Isr) : (s.setNextInterrupt v).lastSampledTime = s.lastSampledTime := rfl
@[simp] theorem State.setNextInterrupt_pixelDepth (s : State τ γ) (v : Isr) : (s.setNextInterrupt v).pixelDepth = s.pixelDepth := rfl
@[simp] theorem State.setNextInterrupt_orientation (s : State τ γ) (v : Isr) : (s.setNextInterrupt v).orientation = s.orientation := rfl
@[simp] theorem State.setNextInterrupt_foregroundColour (s : State τ γ) (v : Isr) : (s.setNextInterrupt v).foregroundColour = s.foregroundColour := rfl
@[simp] theorem State.setNextInterrupt_fault (s : State τ γ) (v : Isr) : (s.setNextInterrupt v).fault = s.fault := rfl
@[simp] theorem State.setNextInterrupt_refused (s : State τ γ) (v : Isr) : (s.setNextInterrupt v).refused = s.refused := rfl
@[simp] theorem State.setNextInterrupt_mem (s : State τ γ) (v : Isr) : (s.setNextInterrupt v).mem = s.mem := rfl
@[simp] theorem State.setNextInterrupt_config (s : State τ γ) (v : Isr) : (s.setNextInterrupt v).config = s.config := rfl
@[simp] theorem State.setNextInterrupt_pending (s : State τ γ) (v : Isr) : (s.setNextInterrupt v).pending = s.pending := rfl
@[simp] theorem State.setNextInterrupt_reply (s : State τ γ) (v : Isr) : (s.setNextInterrupt v).reply = s.reply := rfl
@[simp] theorem State.setNextInterrupt_draws (s : State τ γ) (v : Isr) : (s.setNextInterrupt v).draws = s.draws := rfl

@[simp] theorem State.setLastSampledTime_shiftRegister (s : State τ γ) (v : τ) : (s.setLastSampledTime v).shiftRegister = s.shiftRegister := rfl
@[simp] theorem State.setLastSampledTime_shiftAmount (s : State τ γ) (v : τ) : (s.setLastSampledTime v).shiftAmount = s.shiftAmount := rfl
@[simp] theorem State.setLastSampledTime_port3Latch (s : State τ γ) (v : τ) : (s.setLastSampledTime v).port3Latch = s.port3Latch := rfl
@[simp] theorem State.setLastSampledTime_port5Latch (s : State τ γ) (v : τ) : (s.setLastSampledTime v).port5Latch = s.port5Latch := rfl
@[simp] theorem State.setLastSampledTime_nextInterrupt (s : State τ γ) (v : τ) : (s.setLastSampledTime v).nextInterrupt = s.nextInterrupt := rfl
@[simp] theorem State.setLastSampledTime_lastSampledTime (s : State τ γ) (v : τ) : (s.setLastSampledTime v).lastSampledTime = v := rfl
@[simp] theorem State.setLastSampledTime_pixelDepth (s : State τ γ) (v : τ) : (s.setLastSampledTime v).pixelDepth = s.pixelDepth := rfl
@[simp] theorem State.setLastSampledTime_orientation (s : State τ γ) (v : τ) : (s.setLastSampledTime v).orientation = s.orientation := rfl
@[simp] theorem State.setLastSampledTime_foregroundColour (s : State τ γ) (v : τ) : (s.setLastSampledTime v).foregroundColour = s.foregroundColour := rfl
@[simp] theorem State.setLastSampledTime_fault (s : State τ γ) (v : τ) : (s.setLastSampledTime v).fault = s.fault := rfl
@[simp] theorem State.setLastSampledTime_refused (s : State τ γ) (v : τ) : (s.setLastSampledTime v).refused = s.refused := rfl
@[simp] theorem State.setLastSampledTime_mem (s : State τ γ) (v : τ) : (s.setLastSampledTime v).mem = s.mem := rfl
@[simp] theorem State.setLastSampledTime_config (s : State τ γ) (v : τ) : (s.setLastSampledTime v).config = s.config := rfl
@[simp] theorem State.setLastSampledTime_pending (s : State τ γ) (v : τ) : (s.setLastSampledTime v).pending = s.pending := rfl
@[simp] theorem State.setLastSampledTime_reply (s : State τ γ) (v : τ) : (s.setLastSampledTime v).reply = s.reply := rfl
@[simp] theorem State.setLastSampledTime_draws (s : State τ γ) (v : τ) : (s.setLastSampledTime v).draws = s.draws := rfl

@[simp] theorem State.setPixelDepth_shiftRegister (s : State τ γ) (v : PixelDepth) : (s.setPixelDepth v).shiftRegister = s.shiftRegister := rfl
@[simp] theorem State.setPixelDepth_shiftAmount (s : State τ γ) (v : PixelDepth) : (s.setPixelDepth v).shiftAmount = s.shiftAmount := rfl
@[simp] theorem State.setPixelDepth_port3Latch (s : State τ γ) (v : PixelDepth) : (s.setPixelDepth v).port3Latch = s.port3Latch := rfl
@[simp] theorem State.setPixelDepth_port5Latch (s : State τ γ) (v : PixelDepth) : (s.setPixelDepth v).port5Latch = s.port5Latch := rfl
@[simp] theorem State.setPixelDepth_nextInterrupt (s : State τ γ) (v : PixelDepth) : (s.setPixelDepth v).nextInterrupt = s.nextInterrupt := rfl
@[simp] theorem State.setPixelDepth_lastSampledTime (s : State τ γ) (v : PixelDepth) : (s.setPixelDepth v).lastSampledTime = s.lastSampledTime := rfl
@[simp] theorem State.setPixelDepth_pixelDepth (s : State τ γ) (v : PixelDepth) : (s.setPixelDepth v).pixelDepth = v := rfl
@[simp] theorem State.setPixelDepth_orientation (s : State τ γ) (v : PixelDepth) : (s.setPixelDepth v).orientation = s.orientation := rfl
@[simp] theorem State.setPixelDepth_foregroundColour (s : State τ γ) (v : PixelDepth) : (s.setPixelDepth v).foregroundColour = s.foregroundColour := rfl
@[simp] theorem State.setPixelDepth_fault (s : State τ γ) (v : PixelDepth) : (s.setPixelDepth v).fault = s.fault := rfl
@[simp] theorem State.setPixelDepth_refused (s : State τ γ) (v : PixelDepth) : (s.setPixelDepth v).refused = s.refused := rfl
@[simp] theorem State.setPixelDepth_mem (s : State τ γ) (v : PixelDepth) : (s.setPixelDepth v).mem = s.mem := rfl
@[simp] theorem State.setPixelDepth_config (s : State τ γ) (v : PixelDepth) : (s.setPixelDepth v).config = s.config := rfl
@[simp] theorem State.setPixelDepth_pending (s : State τ γ) (v : PixelDepth) : (s.setPixelDepth v).pending = s.pending := rfl
@[simp] theorem State.setPixelDepth_reply (s : State τ γ) (v : PixelDepth) : (s.setPixelDepth v).reply = s.reply := rfl
@[simp] theorem State.setPixelDepth_draws (s : State τ γ) (v : PixelDepth) : (s.setPixelDepth v).draws = s.draws := rfl

@[simp] theorem State.setOrientation_shiftRegister (s : State τ γ) (v : Orientation) : (s.setOrientation v).shiftRegister = s.shiftRegister := rfl
@[simp] theorem State.setOrientation_shiftAmount (s : State τ γ) (v : Orientation) : (s.setOrientation v).shiftAmount = s.shiftAmount := rfl
@[simp] theorem State.setOrientation_port3Latch (s : State τ γ) (v : Orientation) : (s.setOrientation v).port3Latch = s.port3Latch := rfl
@[simp] theorem State.setOrientation_port5Latch (s : State τ γ) (v : Orientation) : (s.setOrientation v).port5Latch = s.port5Latch := rfl
@[simp] theorem State.setOrientation_nextInterrupt (s : State τ γ) (v : Orientation) : (s.setOrientation v).nextInterrupt = s.nextInterrupt := rfl
@[simp] theorem State.setOrientation_lastSampledTime (s : State τ γ) (v : Orientation) : (s.setOrientation v).lastSampledTime = s.lastSampledTime := rfl
@[simp] theorem State.setOrientation_pixelDepth (s : State τ γ) (v : Orientation) : (s.setOrientation v).pixelDepth = s.pixelDepth := rfl
@[simp] theorem State.setOrientation_orientation (s : State τ γ) (v : Orientation) : (s.setOrientation v).orientation = v := rfl
@[simp] theorem State.setOrientation_foregroundColour (s : State τ γ) (v : Orientation) : (s.setOrientation v).foregroundColour = s.foregroundColour := rfl
@[simp] theorem State.setOrientation_fault (s : State τ γ) (v : Orientation) : (s.setOrientation v).fault = s.fault := rfl
@[simp] theorem State.setOrientation_refused (s : State τ γ) (v : Orientation) : (s.setOrientation v).refused = s.refused := rfl
@[simp] theorem State.setOrientation_mem (s : State τ γ) (v : Orientation) : (s.setOrientation v).mem = s.mem := rfl
@[simp] theorem State.setOrientation_config (s : State τ γ) (v : Orientation) : (s.setOrientation v).config = s.config := rfl
@[simp] theorem State.setOrientation_pending (s : State τ γ) (v : Orientation) : (s.setOrientation v).pending = s.pending := rfl
@[simp] theorem State.setOrientation_reply (s : State τ γ) (v : Orientation) : (s.setOrientation v).reply = s.reply := rfl
@[simp] theorem State.setOrientation_draws (s : State τ γ) (v : Orientation) : (s.setOrientation v).draws = s.draws := rfl

@[simp] theorem State.setForegroundColour_shiftRegister (s : State τ γ) (v : Byte) : (s.setForegroundColour v).shiftRegister = s.shiftRegister := rfl
@[simp] theorem State.setForegroundColour_shiftAmount (s : State τ γ) (v : Byte) : (s.setForegroundColour v).shiftAmount = s.shiftAmount := rfl
@[simp] theorem State.setForegroundColour_port3Latch (s : State τ γ) (v : Byte) : (s.setForegroundColour v).port3Latch = s.port3Latch := rfl
@[simp] theorem State.setForegroundColour_port5Latch (s : State τ γ) (v : Byte) : (s.setForegroundColour v).port5Latch = s.port5Latch := rfl
@[simp] theorem State.setForegroundColour_nextInterrupt (s : State τ γ) (v : Byte) : (s.setForegroundColour v).nextInterrupt = s.nextInterrupt := rfl
@[simp] theorem State.setForegroundColour_lastSampledTime (s : State τ γ) (v : Byte) : (s.setForegroundColour v).lastSampledTime = s.lastSampledTime := rfl
@[simp] theorem State.setForegroundColour_pixelDepth (s : State τ γ) (v : Byte) : (s.setForegroundColour v).pixelDepth = s.pixelDepth := rfl
@[simp] theorem State.setForegroundColour_orientation (s : State τ γ) (v : Byte) : (s.setForegroundColour v).orientation = s.orientation := rfl
@[simp] theorem State.setForegroundColour_foregroundColour (s : State τ γ) (v : Byte) : (s.setForegroundColour v).foregroundColour = v := rfl
@[simp] theorem State.setForegroundColour_fault (s : State τ γ) (v : Byte) : (s.setForegroundColour v).fault = s.fault := rfl
@[simp] theorem State.setForegroundColour_refused (s : State τ γ) (v : Byte) : (s.setForegroundColour v).refused = s.refused := rfl
@[simp] theorem State.setForegroundColour_mem (s : State τ γ) (v : Byte) : (s.setForegroundColour v).mem = s.mem := rfl
@[simp] theorem State.setForegroundColour_config (s : State τ γ) (v : Byte) : (s.setForegroundColour v).config = s.config := rfl
@[simp] theorem State.setForegroundColour_pending (s : State τ γ) (v : Byte) : (s.setForegroundColour v).pending = s.pending := rfl
@[simp] theorem State.setForegroundColour_reply (s : State τ γ) (v : Byte) : (s.setForegroundColour v).reply = s.reply := rfl
@[simp] theorem State.setForegroundColour_draws (s : State τ γ) (v : Byte) : (s.setForegroundColour v).draws = s.draws := rfl

@[simp] theorem State.setFault_shiftRegister (s : State τ γ) (v : Option Fault) : (s.setFault v).shiftRegister = s.shiftRegister := rfl
@[simp] theorem State.setFault_shiftAmount (s : State τ γ) (v : Option Fault) : (s.setFault v).shiftAmount = s.shiftAmount := rfl
@[simp] theorem State.setFault_port3Latch (s : State τ γ) (v : Option Fault) : (s.setFault v).port3Latch = s.port3Latch := rfl
@[simp] theorem State.setFault_port5Latch (s : State τ γ) (v : Option Fault) : (s.setFault v).port5Latch = s.port5Latch := rfl
@[simp] theorem State.setFault_nextInterrupt (s : State τ γ) (v : Option Fault) : (s.setFault v).nextInterrupt = s.nextInterrupt := rfl
@[simp] theorem State.setFault_lastSampledTime (s : State τ γ) (v : Option Fault) : (s.setFault v).lastSampledTime = s.lastSampledTime := rfl
@[simp] theorem State.setFault_pixelDepth (s : State τ γ) (v : Option Fault) : (s.setFault v).pixelDepth = s.pixelDepth := rfl
@[simp] theorem State.setFault_orientation (s : State τ γ) (v : Option Fault) : (s.setFault v).orientation = s.orientation := rfl
@[simp] theorem State.setFault_foregroundColour (s : State τ γ) (v : Option Fault) : (s.setFault v).foregroundColour = s.foregroundColour := rfl
@[simp] theorem State.setFault_fault (s : State τ γ) (v : Option Fault) : (s.setFault v).fault = v := rfl
@[simp] theorem State.setFault_refused (s : State τ γ) (v : Option Fault) : (s.setFault v).refused = s.refused := rfl
@[simp] theorem State.setFault_mem (s : State τ γ) (v : Option Fault) : (s.setFault v).mem = s.mem := rfl
@[simp] theorem State.setFault_config (s : State τ γ) (v : Option Fault) : (s.setFault v).config = s.config := rfl
@[simp] theorem State.setFault_pending (s : State τ γ) (v : Option Fault) : (s.setFault v).pending = s.pending := rfl
@[simp] theorem State.setFault_reply (s : State τ γ) (v : Option Fault) : (s.setFault v).reply = s.reply := rfl
@[simp] theorem State.setFault_draws (s : State τ γ) (v : Option Fault) : (s.setFault v).draws = s.draws := rfl

@[simp] theorem State.setRefused_shiftRegister (s : State τ γ) (v : Bool) : (s.setRefused v).shiftRegister = s.shiftRegister := rfl
@[simp] theorem State.setRefused_shiftAmount (s : State τ γ) (v : Bool) : (s.setRefused v).shiftAmount = s.shiftAmount := rfl
@[simp] theorem State.setRefused_port3Latch (s : State τ γ) (v : Bool) : (s.setRefused v).port3Latch = s.port3Latch := rfl
@[simp] theorem State.setRefused_port5Latch (s : State τ γ) (v : Bool) : (s.setRefused v).port5Latch = s.port5Latch := rfl
@[simp] theorem State.setRefused_nextInterrupt (s : State τ γ) (v : Bool) : (s.setRefused v).nextInterrupt = s.nextInterrupt := rfl
@[simp] theorem State.setRefused_lastSampledTime (s : State τ γ) (v : Bool) : (s.setRefused v).lastSampledTime = s.lastSampledTime := rfl
@[simp] theorem State.setRefused_pixelDepth (s : State τ γ) (v : Bool) : (s.setRefused v).pixelDepth = s.pixelDepth := rfl
@[simp] theorem State.setRefused_orientation (s : State τ γ) (v : Bool) : (s.setRefused v).orientation = s.orientation := rfl
@[simp] theorem State.setRefused_foregroundColour (s : State τ γ) (v : Bool) : (s.setRefused v).foregroundColour = s.foregroundColour := rfl
@[simp] theorem State.setRefused_fault (s : State τ γ) (v : Bool) : (s.setRefused v).fault = s.fault := rfl
@[simp] theorem State.setRefused_refused (s : State τ γ) (v : Bool) : (s.setRefused v).refused = v := rfl
@[simp] theorem State.setRefused_mem (s : State τ γ) (v : Bool) : (s.setRefused v).mem = s.mem := rfl
@[simp] theorem State.setRefused_config (s : State τ γ) (v : Bool) : (s.setRefused v).config = s.config := rfl
@[simp] theorem State.setRefused_pending (s : State τ γ) (v : Bool) : (s.setRefused v).pending = s.pending := rfl
@[simp] theorem State.setRefused_reply (s : State τ γ) (v : Bool) : (s.setRefused v).reply = s.reply := rfl
@[simp] theorem State.setRefused_draws (s : State τ γ) (v : Bool) : (s.setRefused v).draws = s.draws := rfl

@[simp] theorem State.setMem_shiftRegister (s : State τ γ) (v : Memory) : (s.setMem v).shiftRegister = s.shiftRegister := rfl
@[simp] theorem State.setMem_shiftAmount (s : State τ γ) (v : Memory) : (s.setMem v).shiftAmount = s.shiftAmount := rfl
@[simp] theorem State.setMem_port3Latch (s : State τ γ) (v : Memory) : (s.setMem v).port3Latch = s.port3Latch := rfl
@[simp] theorem State.setMem_port5Latch (s : State τ γ) (v : Memory) : (s.setMem v).port5Latch = s.port5Latch := rfl
@[simp] theorem State.setMem_nextInterrupt (s : State τ γ) (v : Memory) : (s.setMem v).nextInterrupt = s.nextInterrupt := rfl
@[simp] theorem State.setMem_lastSampledTime (s : State τ γ) (v : Memory) : (s.setMem v).lastSampledTime = s.lastSampledTime := rfl
@[simp] theorem State.setMem_pixelDepth (s : State τ γ) (v : Memory) : (s.setMem v).pixelDepth = s.pixelDepth := rfl
@[simp] theorem State.setMem_orientation (s : State τ γ) (v : Memory) : (s.setMem v).orientation = s.orientation := rfl
@[simp] theorem State.setMem_foregroundColour (s : State τ γ) (v : Memory) : (s.setMem v).foregroundColour = s.foregroundColour := rfl
@[simp] theorem State.setMem_fault (s : State τ γ) (v : Memory) : (s.setMem v).fault = s.fault := rfl
@[simp] theorem State.setMem_refused (s : State τ γ) (v : Memory) : (s.setMem v).refused = s.refused := rfl
@[simp] theorem State.setMem_mem (s : State τ γ) (v : Memory) : (s.setMem v).mem = v := rfl
@[simp] theorem State.setMem_config (s : State τ γ) (v : Memory) : (s.setMem v).config = s.config := rfl
@[simp] theorem State.setMem_pending (s : State τ γ) (v : Memory) : (s.setMem v).pending = s.pending := rfl
@[simp] theorem State.setMem_reply (s : State τ γ) (v : Memory) : (s.setMem v).reply = s.reply := rfl
@[simp] theorem State.setMem_draws (s : State τ γ) (v : Memory) : (s.setMem v).draws = s.draws := rfl

@[simp] theorem State.setPending_shiftRegister (s : State τ γ) (v : List (HostAction τ γ)) : (s.setPending v).shiftRegister = s.shiftRegister := rfl
@[simp] theorem State.setPending_shiftAmount (s : State τ γ) (v : List (HostAction τ γ)) : (s.setPending v).shiftAmount = s.shiftAmount := rfl
@[simp] theorem State.setPending_port3Latch (s : State τ γ) (v : List (HostAction τ γ)) : (s.setPending v).port3Latch = s.port3Latch := rfl
@[simp] theorem State.setPending_port5Latch (s : State τ γ) (v : List (HostAction τ γ)) : (s.setPending v).port5Latch = s.port5Latch := rfl
@[simp] theorem State.setPending_nextInterrupt (s : State τ γ) (v : List (HostAction τ γ)) : (s.setPending v).nextInterrupt = s.nextInterrupt := rfl
@[simp] theorem State.setPending_lastSampledTime (s : State τ γ) (v : List (HostAction τ γ)) : (s.setPending v).lastSampledTime = s.lastSampledTime := rfl
@[simp] theorem State.setPending_pixelDepth (s : State τ γ) (v : List (HostAction τ γ)) : (s.setPending v).pixelDepth = s.pixelDepth := rfl
@[simp] theorem State.setPending_orientation (s : State τ γ) (v : List (HostAction τ γ)) : (s.setPending v).orientation = s.orientation := rfl
@[simp] theorem State.setPending_foregroundColour (s : State τ γ) (v : List (HostAction τ γ)) : (s.setPending v).foregroundColour = s.foregroundColour := rfl
@[simp] theorem State.setPending_fault (s : State τ γ) (v : List (HostAction τ γ)) : (s.setPending v).fault = s.fault := rfl
@[simp] theorem State.setPending_refused (s : State τ γ) (v : List (HostAction τ γ)) : (s.setPending v).refused = s.refused := rfl
@[simp] theorem State.setPending_mem (s : State τ γ) (v : List (HostAction τ γ)) : (s.setPending v).mem = s.mem := rfl
@[simp] theorem State.setPending_config (s : State τ γ) (v : List (HostAction τ γ)) : (s.setPending v).config = s.config := rfl
@[simp] theorem State.setPending_pending (s : State τ γ) (v : List (HostAction τ γ)) : (s.setPending v).pending = v := rfl
@[simp] theorem State.setPending_reply (s : State τ γ) (v : List (HostAction τ γ)) : (s.setPending v).reply = s.reply := rfl
@[simp] theorem State.setPending_draws (s : State τ γ) (v : List (HostAction τ γ)) : (s.setPending v).draws = s.draws := rfl

@[simp] theorem State.setReply_shiftRegister (s : State τ γ) (v : Option Reply) : (s.setReply v).shiftRegister = s.shiftRegister := rfl
@[simp] theorem State.setReply_shiftAmount (s : State τ γ) (v : Option Reply) : (s.setReply v).shiftAmount = s.shiftAmount := rfl
@[simp] theorem State.setReply_port3Latch (s : State τ γ) (v : Option Reply) : (s.setReply v).port3Latch = s.port3Latch := rfl
@[simp] theorem State.setReply_port5Latch (s : State τ γ) (v : Option Reply) : (s.setReply v).port5Latch = s.port5Latch := rfl
@[simp] theorem State.setReply_nextInterrupt (s : State τ γ) (v : Option Reply) : (s.setReply v).nextInterrupt = s.nextInterrupt := rfl
@[simp] theorem State.setReply_lastSampledTime (s : State τ γ) (v : Option Reply) : (s.setReply v).lastSampledTime = s.lastSampledTime := rfl
@[simp] theorem State.setReply_pixelDepth (s : State τ γ) (v : Option Reply) : (s.setReply v).pixelDepth = s.pixelDepth := rfl
@[simp] theorem State.setReply_orientation (s : State τ γ) (v : Option Reply) : (s.setReply v).orientation = s.orientation := rfl
@[simp] theorem State.setReply_foregroundColour (s : State τ γ) (v : Option Reply) : (s.setReply v).foregroundColour = s.foregroundColour := rfl
@[simp] theorem State.setReply_fault (s : State τ γ) (v : Option Reply) : (s.setReply v).fault = s.fault := rfl
@[simp] theorem State.setReply_refused (s : State τ γ) (v : Option Reply) : (s.setReply v).refused = s.refused := rfl
@[simp] theorem State.setReply_mem (s : State τ γ) (v : Option Reply) : (s.setReply v).mem = s.mem := rfl
@[simp] theorem State.setReply_config (s : State τ γ) (v : Option Reply) : (s.setReply v).config = s.config := rfl
@[simp] theorem State.setReply_pending (s : State τ γ) (v : Option Reply) : (s.setReply v).pending = s.pending := rfl
@[simp] theorem State.setReply_reply (s : State τ γ) (v : Option Reply) : (s.setReply v).reply = v := rfl
@[simp] theorem State.setReply_draws (s : State τ γ) (v : Option Reply) : (s.setReply v).draws = s.draws := rfl

@[simp] theorem State.setDraws_shiftRegister (s : State τ γ) (v : Nat) : (s.setDraws v).shiftRegister = s.shiftRegister := rfl
@[simp] theorem State.setDraws_shiftAmount (s : State τ γ) (v : Nat) : (s.setDraws v).shiftAmount = s.shiftAmount := rfl
@[simp] theorem State.setDraws_port3Latch (s : State τ γ) (v : Nat) : (s.setDraws v).port3Latch = s.port3Latch := rfl
@[simp] theorem State.setDraws_port5Latch (s : State τ γ) (v : Nat) : (s.setDraws v).port5Latch = s.port5Latch := rfl
@[simp] theorem State.setDraws_nextInterrupt (s : State τ γ) (v : Nat) : (s.setDraws v).nextInterrupt = s.nextInterrupt := rfl
@[simp] theorem State.setDraws_lastSampledTime (s : State τ γ) (v : Nat) : (s.setDraws v).lastSampledTime = s.lastSampledTime := rfl
@[simp] theorem State.setDraws_pixelDepth (s : State τ γ) (v : Nat) : (s.setDraws v).pixelDepth = s.pixelDepth := rfl
@[simp] theorem State.setDraws_orientation (s : State τ γ) (v : Nat) : (s.setDraws v).orientation = s.orientation := rfl
@[simp] theorem State.setDraws_foregroundColour (s : State τ γ) (v : Nat) : (s.setDraws v).foregroundColour = s.foregroundColour := rfl
@[simp] theorem State.setDraws_fault (s : State τ γ) (v : Nat) : (s.setDraws v).fault = s.fault := rfl
@[simp] theorem State.setDraws_refused (s : State τ γ) (v : Nat) : (s.setDraws v).refused = s.refused := rfl
@[simp] theorem State.setDraws_mem (s : State τ γ) (v : Nat) : (s.setDraws v).mem = s.mem := rfl
@[simp] theorem State.setDraws_config (s : State τ γ) (v : Nat) : (s.setDraws v).config = s.config := rfl
@[simp] theorem State.setDraws_pending (s : State τ γ) (v : Nat) : (s.setDraws v).pending = s.pending := rfl
@[simp] theorem State.setDraws_reply (s : State τ γ) (v : Nat) : (s.setDraws v).reply = s.reply := rfl
@[simp] theorem State.setDraws_draws (s : State τ γ) (v : Nat) : (s.setDraws v).draws = v := rfl

@[simp] theorem State.setScheduler_shiftRegister (s : State τ γ) (n : Scheduler τ) : (s.setScheduler n).shiftRegister = s.shiftRegister := rfl
@[simp] theorem State.setScheduler_shiftAmount (s : State τ γ) (n : Scheduler τ) : (s.setScheduler n).shiftAmount = s.shiftAmount := rfl
@[simp] theorem State.setScheduler_port3Latch (s : State τ γ) (n : Scheduler τ) : (s.setScheduler n).port3Latch = s.port3Latch := rfl
@[simp] theorem State.setScheduler_port5Latch (s : State τ γ) (n : Scheduler τ) : (s.setScheduler n).port5Latch = s.port5Latch := rfl
@[simp] theorem State.setScheduler_nextInterrupt (s : State τ γ) (n : Scheduler τ) : (s.setScheduler n).nextInterrupt = n.nextInterrupt := rfl
@[simp] theorem State.setScheduler_lastSampledTime (s : State τ γ) (n : Scheduler τ) : (s.setScheduler n).lastSampledTime = n.lastSampledTime := rfl
@[simp] theorem State.setScheduler_pixelDepth (s : State τ γ) (n : Scheduler τ) : (s.setScheduler n).pixelDepth = s.pixelDepth := rfl
@[simp] theorem State.setScheduler_orientation (s : State τ γ) (n : Scheduler τ) : (s.setScheduler n).orientation = s.orientation := rfl
@[simp] theorem State.setScheduler_foregroundColour (s : State τ γ) (n : Scheduler τ) : (s.setScheduler n).foregroundColour = s.foregroundColour := rfl
@[simp] theorem State.setScheduler_fault (s : State τ γ) (n : Scheduler τ) : (s.setScheduler n).fault = s.fault := rfl
@[simp] theorem State.setScheduler_refused (s : State τ γ) (n : Scheduler τ) : (s.setScheduler n).refused = s.refused := rfl
@[simp] theorem State.setScheduler_mem (s : State τ γ) (n : Scheduler τ) : (s.setScheduler n).mem = s.mem := rfl
@[simp] theorem State.setScheduler_config (s : State τ γ) (n : Scheduler τ) : (s.setScheduler n).config = s.config := rfl
@[simp] theorem State.setScheduler_pending (s : State τ γ) (n : Scheduler τ) : (s.setScheduler n).pending = s.pending := rfl
@[simp] theorem State.setScheduler_reply (s : State τ γ) (n : Scheduler τ) : (s.setScheduler n).reply = s.reply := rfl
@[simp] theorem State.setScheduler_draws (s : State τ γ) (n : Scheduler τ) : (s.setScheduler n).draws = s.draws := rfl

@[simp] theorem State.scheduler_nextInterrupt (s : State τ γ) : s.scheduler.nextInterrupt = s.nextInterrupt := rfl
@[simp] theorem State.scheduler_lastSampledTime (s : State τ γ) : s.scheduler.lastSampledTime = s.lastSampledTime := rfl
@[simp] theorem State.setScheduler_scheduler (s : State τ γ) (n : Scheduler τ) : (s.setScheduler n).scheduler = n := rfl
@[simp] theorem State.setScheduler_self (s : State τ γ) : s.setScheduler s.scheduler = s := rfl

@[simp] theorem State.afterDraw_shiftRegister (s : State τ γ) : s.afterDraw.shiftRegister = s.shiftRegister := rfl
@[simp] theorem State.afterDraw_shiftAmount (s : State τ γ) : s.afterDraw.shiftAmount = s.shiftAmount := rfl
@[simp] theorem State.afterDraw_port3Latch (s : State τ γ) : s.afterDraw.port3Latch = s.port3Latch := rfl
@[simp] theorem State.afterDraw_port5Latch (s : State τ γ) : s.afterDraw.port5Latch = s.port5Latch := rfl
@[simp] theorem State.afterDraw_nextInterrupt (s : State τ γ) : s.afterDraw.nextInterrupt = s.nextInterrupt := rfl
@[simp] theorem State.afterDraw_lastSampledTime (s : State τ γ) : s.afterDraw.lastSampledTime = s.lastSampledTime := rfl
@[simp] theorem State.afterDraw_pixelDepth (s : State τ γ) : s.afterDraw.pixelDepth = s.pixelDepth := rfl
@[simp] theorem State.afterDraw_orientation (s : State τ γ) : s.afterDraw.orientation = s.orientation := rfl
@[simp] theorem State.afterDraw_foregroundColour (s : State τ γ) : s.afterDraw.foregroundColour = s.foregroundColour := rfl
@[simp] theorem State.afterDraw_fault (s : State τ γ) : s.afterDraw.fault = s.fault := rfl
@[simp] theorem State.afterDraw_refused (s : State τ γ) : s.afterDraw.refused = s.refused := rfl
@[simp] theorem State.afterDraw_mem (s : State τ γ) : s.afterDraw.mem = s.mem := rfl
@[simp] theorem State.afterDraw_config (s : State τ γ) : s.afterDraw.config = s.config := rfl
@[simp] theorem State.afterDraw_pending (s : State τ γ) : s.afterDraw.pending = s.pending := rfl
@[simp] theorem State.afterDraw_reply (s : State τ γ) : s.afterDraw.reply = s.reply := rfl
@[simp] theorem State.afterDraw_draws (s : State τ γ) : s.afterDraw.draws = s.draws + 1 := rfl

@[simp] theorem resetFields_shiftRegister (sr : BitVec 16) (sa : BitVec 3) (s : State τ γ) :
    (resetFields sr sa s).shiftRegister = sr := rfl
@[simp] theorem resetFields_shiftAmount (sr : BitVec 16) (sa : BitVec 3) (s : State τ γ) :
    (resetFields sr sa s).shiftAmount = sa := rfl
@[simp] theorem resetFields_port3Latch (sr : BitVec 16) (sa : BitVec 3) (s : State τ γ) :
    (resetFields sr sa s).port3Latch = 0x00 := rfl
@[simp] theorem resetFields_port5Latch (sr : BitVec 16) (sa : BitVec 3) (s : State τ γ) :
    (resetFields sr sa s).port5Latch = 0x00 := rfl
@[simp] theorem resetFields_nextInterrupt (sr : BitVec 16) (sa : BitVec 3) (s : State τ γ) :
    (resetFields sr sa s).nextInterrupt = .one := rfl
@[simp] theorem resetFields_lastSampledTime (sr : BitVec 16) (sa : BitVec 3) (s : State τ γ) :
    (resetFields sr sa s).lastSampledTime = s.config.lastTimeReset := rfl
@[simp] theorem resetFields_pixelDepth (sr : BitVec 16) (sa : BitVec 3) (s : State τ γ) :
    (resetFields sr sa s).pixelDepth = s.config.bppReset := rfl
@[simp] theorem resetFields_orientation (sr : BitVec 16) (sa : BitVec 3) (s : State τ γ) :
    (resetFields sr sa s).orientation = .cocktail := rfl
@[simp] theorem resetFields_foregroundColour (sr : BitVec 16) (sa : BitVec 3) (s : State τ γ) :
    (resetFields sr sa s).foregroundColour = 0xFF := rfl
@[simp] theorem resetFields_fault (sr : BitVec 16) (sa : BitVec 3) (s : State τ γ) :
    (resetFields sr sa s).fault = none := rfl
@[simp] theorem resetFields_refused (sr : BitVec 16) (sa : BitVec 3) (s : State τ γ) :
    (resetFields sr sa s).refused = false := rfl
@[simp] theorem resetFields_mem (sr : BitVec 16) (sa : BitVec 3) (s : State τ γ) :
    (resetFields sr sa s).mem = s.mem := rfl
@[simp] theorem resetFields_config (sr : BitVec 16) (sa : BitVec 3) (s : State τ γ) :
    (resetFields sr sa s).config = s.config := rfl
@[simp] theorem resetFields_pending (sr : BitVec 16) (sa : BitVec 3) (s : State τ γ) :
    (resetFields sr sa s).pending = s.pending := rfl
@[simp] theorem resetFields_reply (sr : BitVec 16) (sa : BitVec 3) (s : State τ γ) :
    (resetFields sr sa s).reply = s.reply := rfl
@[simp] theorem resetFields_draws (sr : BitVec 16) (sa : BitVec 3) (s : State τ γ) :
    (resetFields sr sa s).draws = s.draws := rfl

end Sys2Proof.Machine
end

