-- ==== Sys2Proof/Laws/Memory.lean ====
section
/-! SUPPORT. Host memory: a read after a write, and that every memory operation keeps the canonical form. -/

namespace Sys2Proof.Machine

/-- The canonical form, said in parts. -/
theorem Memory.wf_iff (m : Memory) :
    m.wf = true ↔ (m.map Prod.fst).Pairwise (· < ·) ∧ ∀ c ∈ m, c.2 ≠ Memory.unlisted := by
  simp [Memory.wf]

theorem Memory.within_iff (m : Memory) (bits : Nat) : m.within bits = true ↔ ∀ c ∈ m, c.1 < 2 ^ bits := by
  simp [Memory.within]

theorem Memory.wf_nil : Memory.wf [] = true := rfl

@[simp] theorem Memory.read_nil (a : Nat) : Memory.read [] a = Memory.unlisted := rfl

@[simp] theorem Memory.read_cons (k : Nat) (v : Byte) (m : Memory) (a : Nat) :
    Memory.read ((k, v) :: m) a = if k = a then v else m.read a := rfl

/-- An address below every listed one is not listed. -/
theorem Memory.read_of_forall_ne {m : Memory} {a : Nat} (h : ∀ c ∈ m, c.1 ≠ a) : m.read a = Memory.unlisted := by
  induction m with
  | nil => rfl
  | cons c m ih =>
    obtain ⟨k, v⟩ := c
    have hk : k ≠ a := h (k, v) (by simp)
    simp [hk, ih fun c hc => h c (by simp [hc])]

theorem Memory.read_append (m₁ m₂ : Memory) (a : Nat) :
    Memory.read (m₁ ++ m₂) a = if (∃ c ∈ m₁, c.1 = a) then m₁.read a else m₂.read a := by
  induction m₁ with
  | nil => simp
  | cons c m ih =>
    obtain ⟨k, v⟩ := c
    by_cases hk : k = a
    · simp [hk]
    · simp [hk, ih]

theorem Memory.mem_cell {a : Nat} {v : Byte} {c : Host.Cell} :
    c ∈ Memory.cell a v ↔ v ≠ Memory.unlisted ∧ c = (a, v) := by
  unfold Memory.cell
  split <;> simp_all

/-- Every cell after a write is an old one at another address, or the one written. -/
theorem Memory.mem_write {m : Memory} {a : Nat} {v : Byte} {c : Host.Cell} (h : c ∈ m.write a v) :
    c ∈ m ∨ (v ≠ Memory.unlisted ∧ c = (a, v)) := by
  induction m with
  | nil => exact .inr (Memory.mem_cell.1 h)
  | cons head m ih =>
    obtain ⟨k, w⟩ := head
    unfold Memory.write at h
    split at h
    · rcases List.mem_cons.1 h with rfl | h
      · simp
      · exact (ih h).imp_left fun h => by simp [h]
    · split at h
      · rcases List.mem_append.1 h with h | h
        · exact .inr (Memory.mem_cell.1 h)
        · exact .inl (by simp [h])
      · rcases List.mem_append.1 h with h | h
        · exact .inr (Memory.mem_cell.1 h)
        · exact .inl h

theorem Memory.cell_append_wf {m : Memory} {a : Nat} {v : Byte} (h : m.wf = true) (ha : ∀ c ∈ m, a < c.1) :
    Memory.wf (Memory.cell a v ++ m) = true := by
  unfold Memory.cell
  split
  · simpa using h
  · next hv =>
    rw [Memory.wf_iff] at h ⊢
    refine ⟨?_, ?_⟩
    · simpa using ⟨fun x w hc => ha (x, w) hc, by simpa using h.1⟩
    · simpa [hv] using fun x w hc => h.2 (x, w) hc

theorem Memory.wf_tail {c : Host.Cell} {m : Memory} (h : Memory.wf (c :: m) = true) :
    m.wf = true ∧ ∀ d ∈ m, c.1 < d.1 := by
  rw [Memory.wf_iff] at h ⊢
  simp only [List.map_cons, List.pairwise_cons] at h
  exact ⟨⟨h.1.2, fun d hd => h.2 d (by simp [hd])⟩, fun d hd => h.1.1 d.1 (List.mem_map_of_mem hd)⟩

/-- A write keeps the canonical form. -/
theorem Memory.write_wf {m : Memory} (h : m.wf = true) (a : Nat) (v : Byte) : (m.write a v).wf = true := by
  induction m with
  | nil => simpa [Memory.write] using Memory.cell_append_wf (v := v) (a := a) h (by simp)
  | cons head m ih =>
    obtain ⟨k, w⟩ := head
    obtain ⟨hm, hk⟩ := Memory.wf_tail h
    unfold Memory.write
    split
    · next hka =>
      have hih := ih hm
      rw [Memory.wf_iff] at hih h ⊢
      refine ⟨?_, ?_⟩
      · simp only [List.map_cons, List.pairwise_cons]
        refine ⟨fun x hx => ?_, hih.1⟩
        obtain ⟨c, hc, rfl⟩ := List.mem_map.1 hx
        rcases Memory.mem_write hc with hc | ⟨-, rfl⟩
        · exact hk c hc
        · exact hka
      · intro c hc
        rcases List.mem_cons.1 hc with rfl | hc
        · exact h.2 _ (by simp)
        · exact hih.2 c hc
    · split
      · next hka => exact Memory.cell_append_wf hm fun c hc => hka ▸ hk c hc
      · next h1 h2 =>
        refine Memory.cell_append_wf h fun c hc => ?_
        rcases List.mem_cons.1 hc with rfl | hc
        · show a < k; omega
        · have := hk c hc; simp only at this; omega

theorem Memory.write_within {m : Memory} {bits : Nat} (h : m.within bits = true) {a : Nat} (ha : a < 2 ^ bits) (v : Byte) :
    (m.write a v).within bits = true := by
  rw [Memory.within_iff] at h ⊢
  intro c hc
  rcases Memory.mem_write hc with hc | ⟨-, rfl⟩
  · exact h c hc
  · exact ha

theorem Memory.read_cell_append {m : Memory} {a : Nat} (v : Byte) (h : ∀ c ∈ m, a < c.1) (b : Nat) :
    Memory.read (Memory.cell a v ++ m) b = if b = a then v else m.read b := by
  unfold Memory.cell
  split
  · next hv =>
    by_cases hb : b = a
    · subst hb
      simpa [hv] using Memory.read_of_forall_ne fun c hc => (Nat.ne_of_gt (h c hc))
    · simp [hb]
  · simp [eq_comm]

/-- A read after a write of a canonical memory: the byte written at its address, the old byte elsewhere. -/
theorem Memory.read_write {m : Memory} (h : m.wf = true) (a : Nat) (v : Byte) (b : Nat) :
    (m.write a v).read b = if b = a then v else m.read b := by
  induction m with
  | nil => simpa [Memory.write] using Memory.read_cell_append (m := []) (a := a) v (by simp) b
  | cons head m ih =>
    obtain ⟨k, w⟩ := head
    obtain ⟨hm, hk⟩ := Memory.wf_tail h
    unfold Memory.write
    split
    · next hka =>
      by_cases hb : b = a
      · subst hb
        simp [Nat.ne_of_lt hka, ih hm]
      · simp [ih hm, hb]
    · split
      · next hka =>
        subst hka
        rw [Memory.read_cell_append v hk]
        by_cases hb : b = k
        · simp [hb]
        · simp [hb, eq_comm]
      · next h1 h2 =>
        refine Memory.read_cell_append v (fun c hc => ?_) b
        rcases List.mem_cons.1 hc with rfl | hc
        · show a < k; omega
        · have := hk c hc; simp only at this; omega

theorem Memory.mem_region {base len : Nat} {f : Nat → Byte} {c : Host.Cell} :
    c ∈ Memory.region base len f ↔ ∃ o < len, c = (base + o, f o) ∧ f o ≠ Memory.unlisted := by
  simp only [Memory.region, List.mem_filter, List.mem_map, List.mem_range, bne_iff_ne]
  constructor
  · rintro ⟨⟨o, ho, rfl⟩, hne⟩
    exact ⟨o, ho, rfl, hne⟩
  · rintro ⟨o, ho, rfl, hne⟩
    exact ⟨⟨o, ho, rfl⟩, hne⟩

theorem Memory.region_rising (base len : Nat) (f : Nat → Byte) :
    ((Memory.region base len f).map Prod.fst).Pairwise (· < ·) := by
  have h : ((List.range len).map fun o => ((base + o, f o) : Host.Cell)).Pairwise (fun c d => c.1 < d.1) := by
    rw [List.pairwise_map]
    exact List.pairwise_lt_range.imp (fun {a b} hab => by show base + a < base + b; omega)
  exact List.pairwise_map.2 (h.sublist List.filter_sublist)

/-- Writing a region keeps the canonical form. -/
theorem Memory.writeRegion_wf {m : Memory} (h : m.wf = true) (base len : Nat) (f : Nat → Byte) :
    (m.writeRegion base len f).wf = true := by
  rw [Memory.wf_iff] at h ⊢
  have hs : m.Pairwise (fun c d => c.1 < d.1) := List.pairwise_map.1 h.1
  refine ⟨List.pairwise_map.2 ?_, ?_⟩
  · simp only [Memory.writeRegion, List.pairwise_append]
    refine ⟨⟨hs.sublist List.filter_sublist, List.pairwise_map.1 (Memory.region_rising base len f), ?_⟩,
      hs.sublist List.filter_sublist, ?_⟩
    · intro c hc d hd
      obtain ⟨o, -, rfl, -⟩ := Memory.mem_region.1 hd
      have := (List.mem_filter.1 hc).2
      simp only [decide_eq_true_eq] at this
      show c.1 < base + o; omega
    · intro c hc d hd
      have hd := (List.mem_filter.1 hd).2
      simp only [decide_eq_true_eq] at hd
      rcases List.mem_append.1 hc with hc | hc
      · have := (List.mem_filter.1 hc).2
        simp only [decide_eq_true_eq] at this
        omega
      · obtain ⟨o, ho, rfl, -⟩ := Memory.mem_region.1 hc
        show base + o < d.1; omega
  · intro c hc
    simp only [Memory.writeRegion, List.mem_append] at hc
    rcases hc with (hc | hc) | hc
    · exact h.2 c (List.mem_filter.1 hc).1
    · obtain ⟨o, -, rfl, hne⟩ := Memory.mem_region.1 hc
      exact hne
    · exact h.2 c (List.mem_filter.1 hc).1

theorem Memory.writeRegion_within {m : Memory} {bits : Nat} (h : m.within bits = true) {base len : Nat}
    (hb : base + len ≤ 2 ^ bits) (f : Nat → Byte) : (m.writeRegion base len f).within bits = true := by
  rw [Memory.within_iff] at h ⊢
  intro c hc
  simp only [Memory.writeRegion, List.mem_append] at hc
  rcases hc with (hc | hc) | hc
  · exact h c (List.mem_filter.1 hc).1
  · obtain ⟨o, ho, rfl, -⟩ := Memory.mem_region.1 hc
    show base + o < 2 ^ bits; omega
  · exact h c (List.mem_filter.1 hc).1

theorem Memory.read_filter {m : Memory} {p : Nat → Bool} {a : Nat} (h : p a = true) :
    Memory.read (m.filter fun c => p c.1) a = m.read a := by
  induction m with
  | nil => rfl
  | cons c m ih =>
    obtain ⟨k, v⟩ := c
    by_cases hk : k = a
    · subst hk
      simp [h]
    · by_cases hp : p k = true
      · simp [hp, hk, ih]
      · simp [hp, hk, ih]

theorem Memory.read_region {base len : Nat} {f : Nat → Byte} {o : Nat} (ho : o < len) :
    Memory.read (Memory.region base len f) (base + o) = f o := by
  have key : ∀ l : List Nat, o ∈ l →
      Memory.read ((l.map fun o => (base + o, f o)).filter fun c => c.2 != Memory.unlisted) (base + o) = f o := by
    intro l
    induction l with
    | nil => simp
    | cons x l ih =>
      intro hx
      by_cases hxo : x = o
      · subst hxo
        by_cases hv : f x = Memory.unlisted
        · by_cases hin : x ∈ l
          · simpa [hv] using (ih hin).trans hv
          · simp only [List.map_cons, List.filter_cons, hv]
            simp only [bne_self_eq_false, Bool.false_eq_true, if_false]
            refine Memory.read_of_forall_ne fun c hc => ?_
            obtain ⟨y, hy, rfl⟩ := List.mem_map.1 (List.mem_filter.1 hc).1
            intro he
            have : y = x := by simpa using he
            exact hin (this ▸ hy)
        · simp [hv]
      · have hin : o ∈ l := by
          rcases List.mem_cons.1 hx with h | h
          · exact absurd h.symm hxo
          · exact h
        by_cases hv : f x = Memory.unlisted
        · simpa [hv] using ih hin
        · simpa [hv, hxo] using ih hin
  exact key (List.range len) (List.mem_range.2 ho)

/-- A read inside a written region gives the region's byte. -/
theorem Memory.read_writeRegion_inside (m : Memory) {base len : Nat} (f : Nat → Byte) {o : Nat} (ho : o < len) :
    (m.writeRegion base len f).read (base + o) = f o := by
  unfold Memory.writeRegion
  rw [List.append_assoc, Memory.read_append, if_neg, Memory.read_append]
  · split
    · exact Memory.read_region ho
    · next hno =>
      have h1 : f o = Memory.unlisted := by
        by_contra hne
        exact hno ⟨(base + o, f o), Memory.mem_region.2 ⟨o, ho, rfl, hne⟩, rfl⟩
      rw [h1]
      refine Memory.read_of_forall_ne fun c hc => ?_
      have := (List.mem_filter.1 hc).2
      simp only [decide_eq_true_eq] at this
      omega
  · rintro ⟨c, hc, hce⟩
    have := (List.mem_filter.1 hc).2
    simp only [decide_eq_true_eq] at this
    omega

/-- A read outside a written region gives what it gave before. -/
theorem Memory.read_writeRegion_outside (m : Memory) {base len : Nat} (f : Nat → Byte) {a : Nat}
    (ha : a < base ∨ base + len ≤ a) : (m.writeRegion base len f).read a = m.read a := by
  unfold Memory.writeRegion
  have hreg : ∀ c ∈ Memory.region base len f, c.1 ≠ a := by
    intro c hc
    obtain ⟨o, ho, rfl, -⟩ := Memory.mem_region.1 hc
    show base + o ≠ a; omega
  rcases ha with ha | ha
  · rw [List.append_assoc, Memory.read_append]
    have hlow := Memory.read_filter (m := m) (p := fun k => decide (k < base)) (a := a) (by simpa using ha)
    split
    · exact hlow
    · next hno =>
      rw [Memory.read_append, if_neg (fun ⟨c, hc, he⟩ => hreg c hc he)]
      have h0 : m.read a = Memory.unlisted := by
        rw [← hlow]
        exact Memory.read_of_forall_ne fun c hc he => hno ⟨c, hc, he⟩
      rw [h0]
      refine Memory.read_of_forall_ne fun c hc => ?_
      have := (List.mem_filter.1 hc).2
      simp only [decide_eq_true_eq] at this
      omega
  · rw [List.append_assoc, Memory.read_append, if_neg, Memory.read_append, if_neg (fun ⟨c, hc, he⟩ => hreg c hc he)]
    · exact Memory.read_filter (p := fun k => decide (base + len ≤ k)) (by simpa using ha)
    · rintro ⟨c, hc, hce⟩
      have := (List.mem_filter.1 hc).2
      simp only [decide_eq_true_eq] at this
      omega

end Sys2Proof.Machine
end

