-- ==== Sys2Proof/Laws/Ops.lean ====
section
/-! SUPPORT. One lemma for each shared operation over the block's marks: everything it can answer. -/

namespace Sys2Proof.Machine

variable {τ γ : Type} {s t : State τ γ} {k : Result τ γ}

theorem whenRunning_of_running (h : s.Running) (k : Result τ γ) : whenRunning s k = k := by
  simp [whenRunning, h.1, h.2]

theorem whenRunning_of_fault {f : Fault} (h : s.fault = some f) (k : Result τ γ) : whenRunning s k = .fault f := by
  simp [whenRunning, h]

theorem whenRunning_of_refused (h : s.fault = none) (h' : s.refused = true) (k : Result τ γ) :
    whenRunning s k = .refused .blockRefused := by
  simp [whenRunning, h, h']

/-- A guarded operation answers a next state only on a running block, and then it is the operation's own. -/
theorem whenRunning_next (h : whenRunning s k = .next t) : s.Running ∧ k = .next t := by
  unfold whenRunning at h
  cases hf : s.fault with
  | some f => simp [hf] at h
  | none =>
    cases hr : s.refused with
    | true => simp [hf, hr] at h
    | false => exact ⟨⟨hf, hr⟩, by simpa [hf, hr] using h⟩

@[simp] theorem whenRunning_next_iff : whenRunning s k = .next t ↔ s.Running ∧ k = .next t :=
  ⟨whenRunning_next, fun ⟨h, hk⟩ => by rw [whenRunning_of_running h, hk]⟩

@[simp] theorem answer_next_iff {v : Reply} : answer v s = .next t ↔ t = s.setReply (some v) := by
  simp [answer, eq_comm]

@[simp] theorem finish_next_iff : finish s = .next t ↔ t = s.setReply none := by
  simp [finish, eq_comm]

@[simp] theorem raise_next_iff {f : Fault} :
    raise f s = .next t ↔ t = (s.setFault (some f)).setReply none := by
  simp [raise]

@[simp] theorem refuse_next_iff : refuse s = .next t ↔ t = (s.setRefused true).setReply none := by
  simp [refuse]

theorem hostStore_next {a : Nat} {v : Byte} (h : hostStore a v s = .next t) :
    a < 2 ^ s.config.hostAddrBits ∧ t = s.setMem (s.mem.write a v) := by
  unfold hostStore at h
  split at h
  · next ha => exact ⟨ha, by simpa [eq_comm] using h⟩
  · simp at h

end Sys2Proof.Machine
end

