-- ==== Sys2Proof/Laws/Blit.lean ====
section
/-! SUPPORT. The blit's parts: when no precondition fails, what a byte of the written region is, and what a pixel is. -/

namespace Sys2Proof.Machine

/-- No precondition fails exactly on buffers that meet them all (43_blit.md R162). -/
theorem blitViolation_eq_none_iff {bits d n stride a m h rb : Nat} :
    blitViolation bits d n stride a m h rb = none ↔ BuffersMeet bits d n stride a m h rb := by
  have e : sourceLength = 7168 := rfl
  unfold blitViolation
  rw [e]
  constructor
  · intro hv
    split_ifs at hv
    constructor <;> omega
  · rintro ⟨h1, h2, h3, h4, h5, h6⟩
    rw [if_neg (by omega), if_neg (by omega), if_neg (by omega), if_neg (by omega)]

theorem rowBytes_pos (o : Orientation) (depth : Depth) : 0 < rowBytes o depth := by
  cases o <;> cases depth <;> decide

theorem offset_lt {stride h y x : Nat} (hy : y < h) (hx : x < stride) : y * stride + x < stride * h :=
  calc
    y * stride + x < (y + 1) * stride := by rw [Nat.succ_mul]; omega
    _ ≤ h * stride := Nat.mul_le_mul_right _ hy
    _ = stride * h := Nat.mul_comm ..

/-- The byte a blit leaves at row `y`, byte `x`, is the mode's output byte. -/
theorem blit_read_row {s : State} {depth : Depth} {d stride a y x : Nat} (hst : rowBytes s.orientation depth ≤ stride)
    (hy : y < outputHeight s.orientation) (hx : x < rowBytes s.orientation depth) :
    (s.mem.writeRegion d (stride * outputHeight s.orientation) (regionByte s depth stride a)).read (d + y * stride + x) =
      outputByte s.orientation depth s.foregroundColour s.mem a y x := by
  rw [Nat.add_assoc, Memory.read_writeRegion_inside _ _ (offset_lt hy (by omega))]
  have hmod : (y * stride + x) % stride = x := by
    rw [Nat.mul_comm, Nat.mul_add_mod, Nat.mod_eq_of_lt (by omega)]
  have hdiv : (y * stride + x) / stride = y := by
    rw [Nat.mul_comm, Nat.mul_add_div (by omega), Nat.div_eq_of_lt (by omega), Nat.add_zero]
  rw [regionByte, hmod, hdiv, if_pos hx]

/-- Bytes outside the written region stay. -/
theorem blit_read_outside {s : State} {depth : Depth} {d stride a x : Nat}
    (hx : x < d ∨ d + stride * outputHeight s.orientation ≤ x) :
    (s.mem.writeRegion d (stride * outputHeight s.orientation) (regionByte s depth stride a)).read x = s.mem.read x :=
  Memory.read_writeRegion_outside _ _ hx

/-- A pixel as a byte is 1 where the source bit is set, else 0 (R161). -/
theorem pix_eq_ite (m : Memory) (a r k : Nat) : pix m a r k = if sourceBit m a r k then 1 else 0 := by
  unfold pix sourceBit sourceByte lineBytes
  generalize m.read (a + 32 * r + k / 8) = b
  have hi : k % 8 < 8 := Nat.mod_lt _ (by decide)
  generalize k % 8 = i at *
  apply BitVec.eq_of_getLsbD_eq
  intro j hj
  cases h : b.getLsbD i <;> interval_cases j <;> simp [h]

/-- The 8-bit modes' byte: the colour where the source bit is set, else 0 (R165). -/
theorem colourByte_pix (fg : Byte) (m : Memory) (a r k : Nat) :
    colourByte fg (pix m a r k) = if sourceBit m a r k then fg else 0 := by
  rw [pix_eq_ite, colourByte]
  split <;> simp

/-- Bit `j` of a transposed byte is the pixel of line `8c + j` (R167). -/
theorem transposedByte_getLsbD (m : Memory) (a c k : Nat) {j : Nat} (hj : j < 8) :
    (transposedByte m a c k).getLsbD j = sourceBit m a (8 * c + j) k := by
  have bit : ∀ (b : Bool) (n i : Nat), i < 8 →
      ((if b then (1 : Byte) else 0) <<< n).getLsbD i = (b && decide (i = n)) := by
    intro b n i hi
    cases b
    · simp
    · have : ((1 : Byte) <<< n).getLsbD i = decide (i = n) := by
        simp only [BitVec.getLsbD_shiftLeft, hi, decide_true, Bool.true_and]
        by_cases h : i < n
        · simp [h, Nat.ne_of_lt h]
        · by_cases h' : i = n
          · simp [h']
          · simp [h, h', show ¬i - n = 0 from by omega]
      simpa using this
  unfold transposedByte
  simp only [pix_eq_ite, show List.range 8 = [0, 1, 2, 3, 4, 5, 6, 7] from rfl, List.foldl_cons, List.foldl_nil,
    BitVec.getLsbD_or, bit _ _ _ hj]
  interval_cases j <;> simp

end Sys2Proof.Machine
end

