-- ==== Sys2Proof/Laws/Decode.lean ====
section
/-! SUPPORT. The fields of a word put together and taken apart. -/

namespace Sys2Proof

@[simp] theorem fieldsWord_cls (cls port data : Byte) : (fieldsWord cls port data).cls = cls := by
  apply BitVec.eq_of_getLsbD_eq
  intro i hi
  simp only [Word.cls, fieldsWord, BitVec.getLsbD_extractLsb', BitVec.getLsbD_append]
  simp [hi, show ¬24 + i < 8 from by omega, show ¬24 + i - 8 < 8 from by omega, show ¬24 + i - 8 - 8 < 8 from by omega,
    show 24 + i - 8 - 8 - 8 = i from by omega]

@[simp] theorem fieldsWord_port (cls port data : Byte) : (fieldsWord cls port data).port = port := by
  apply BitVec.eq_of_getLsbD_eq
  intro i hi
  simp only [Word.port, fieldsWord, BitVec.getLsbD_extractLsb', BitVec.getLsbD_append]
  simp [hi, show ¬16 + i < 8 from by omega, show ¬16 + i - 8 < 8 from by omega, show 16 + i - 8 - 8 = i from by omega]

@[simp] theorem fieldsWord_rsv (cls port data : Byte) : (fieldsWord cls port data).rsv = 0 := by
  apply BitVec.eq_of_getLsbD_eq
  intro i hi
  simp only [Word.rsv, fieldsWord, BitVec.getLsbD_extractLsb', BitVec.getLsbD_append]
  simp [hi, show ¬8 + i < 8 from by omega]

@[simp] theorem fieldsWord_data (cls port data : Byte) : (fieldsWord cls port data).data = data := by
  apply BitVec.eq_of_getLsbD_eq
  intro i hi
  simp only [Word.data, fieldsWord, BitVec.getLsbD_extractLsb', BitVec.getLsbD_append]
  simp [hi]

/-- A word is its four fields, so two words with the same fields are one word. -/
theorem Word.ext_fields {w w' : Word} (hc : w.cls = w'.cls) (hp : w.port = w'.port) (hr : w.rsv = w'.rsv)
    (hd : w.data = w'.data) : w = w' := by
  have field : ∀ {n : Nat}, w.extractLsb' n 8 = w'.extractLsb' n 8 → ∀ i, n ≤ i → i < n + 8 →
      w.getLsbD i = w'.getLsbD i := by
    intro n h i h1 h2
    have := congrArg (fun b => b.getLsbD (i - n)) h
    simpa [BitVec.getLsbD_extractLsb', show i - n < 8 from by omega, show n + (i - n) = i from by omega] using this
  apply BitVec.eq_of_getLsbD_eq
  intro i hi
  by_cases h1 : i < 8
  · exact field hd i (by omega) (by omega)
  · by_cases h2 : i < 16
    · exact field hr i (by omega) (by omega)
    · by_cases h3 : i < 24
      · exact field hp i (by omega) (by omega)
      · exact field hc i (by omega) (by omega)

/-- A word whose reserved field is 0 is put together from its other three fields. -/
theorem fieldsWord_fields {w : Word} (h : w.rsv = 0) : fieldsWord w.cls w.port w.data = w :=
  Word.ext_fields (by simp) (by simp) (by simp [h]) (by simp)

theorem Word.cls_toNat (w : Word) : w.cls.toNat = w.toNat / 2 ^ 24 := by
  have := w.isLt
  simp [Word.cls, BitVec.extractLsb'_toNat, Nat.shiftRight_eq_div_pow]
  omega

theorem Word.port_toNat (w : Word) : w.port.toNat = w.toNat / 2 ^ 16 % 256 := by
  simp [Word.port, BitVec.extractLsb'_toNat, Nat.shiftRight_eq_div_pow]

theorem Word.rsv_toNat (w : Word) : w.rsv.toNat = w.toNat / 2 ^ 8 % 256 := by
  simp [Word.rsv, BitVec.extractLsb'_toNat, Nat.shiftRight_eq_div_pow]

theorem Word.data_toNat (w : Word) : w.data.toNat = w.toNat % 256 := by
  simp [Word.data, BitVec.extractLsb'_toNat]

/-- The word of a number written as its fields: class, port and data, the reserved field 0. -/
theorem ofNat_eq_fieldsWord {c p v : Nat} (hc : c < 256) (hp : p < 256) (hv : v < 256) {n : Nat}
    (hn : n = c * 2 ^ 24 + p * 2 ^ 16 + v) :
    BitVec.ofNat 32 n = fieldsWord (BitVec.ofNat 8 c) (BitVec.ofNat 8 p) (BitVec.ofNat 8 v) := by
  have e : (BitVec.ofNat 32 n).toNat = n := by
    simp
    omega
  apply Word.ext_fields
  · rw [fieldsWord_cls]
    apply BitVec.eq_of_toNat_eq
    rw [Word.cls_toNat, e]
    simp
    omega
  · rw [fieldsWord_port]
    apply BitVec.eq_of_toNat_eq
    rw [Word.port_toNat, e]
    simp
    omega
  · rw [fieldsWord_rsv]
    apply BitVec.eq_of_toNat_eq
    rw [Word.rsv_toNat, e]
    simp
    omega
  · rw [fieldsWord_data]
    apply BitVec.eq_of_toNat_eq
    rw [Word.data_toNat, e]
    simp
    omega

/-- Decoding a word put together from its fields (30_encoding.md R76). -/
theorem decode_fieldsWord (cls port data : Byte) (o : SideOperands) :
    decode ⟨fieldsWord cls port data, o⟩ =
      if cls = 1 then
        if data ≠ 0 then .badCmd (fieldsWord cls port data) else Operation.select (.input port)
      else if cls = 2 then Operation.select (.output port data)
      else if port ≠ 0 ∨ data ≠ 0 then .badCmd (fieldsWord cls port data)
      else
        match plainOperation cls o with
        | none => .badCmd (fieldsWord cls port data)
        | some op => op.select := by
  simp only [decode, decodeOperation, fieldsWord_cls, fieldsWord_port, fieldsWord_rsv, fieldsWord_data]
  cases plainOperation cls o <;> split_ifs <;> simp_all

end Sys2Proof
end

