-- ==== Sys2Proof/Laws/PerInstr.lean ====
section
/-! SUPPORT. Statements made for each instruction: the encoded word spells the instruction's own row of the opcode map. -/

namespace Sys2Proof.Laws.EncodesItsRow

/-- The word `encode` gives an instruction has, under its row's mask, the row's match (30_encoding.md R75). -/
def Statement (i : Instr) : Prop := i.row.spells (encode i).word = true

/-- The data byte of a word is not under the mask 0xFFFFFF00. -/
theorem fieldsWord_and_high (cls port v : Byte) : fieldsWord cls port v &&& 0xFFFFFF00#32 = fieldsWord cls port 0 := by
  apply BitVec.eq_of_getLsbD_eq
  intro i hi
  simp only [fieldsWord, BitVec.getLsbD_and, BitVec.getLsbD_append]
  have mask : (0xFFFFFF00#32).getLsbD i = decide (8 ≤ i) := by
    revert i
    decide
  rw [mask]
  by_cases h : i < 8
  · simp [h]
  · simp [h, show 8 ≤ i from by omega]

theorem in0 : Statement .in0 := by unfold Statement; decide
theorem in1 : Statement .in1 := by unfold Statement; decide
theorem in2 : Statement .in2 := by unfold Statement; decide
theorem in3 : Statement .in3 := by unfold Statement; decide
theorem in4 : Statement .in4 := by unfold Statement; decide
theorem in5 : Statement .in5 := by unfold Statement; decide
theorem in6 : Statement .in6 := by unfold Statement; decide
theorem out2 (v : Byte) : Statement (.out2 v) := by
  have h := fieldsWord_and_high 2 2 v
  exact beq_iff_eq.2 h
theorem out3 (v : Byte) : Statement (.out3 v) := by
  have h := fieldsWord_and_high 2 3 v
  exact beq_iff_eq.2 h
theorem out4 (v : Byte) : Statement (.out4 v) := by
  have h := fieldsWord_and_high 2 4 v
  exact beq_iff_eq.2 h
theorem out5 (v : Byte) : Statement (.out5 v) := by
  have h := fieldsWord_and_high 2 5 v
  exact beq_iff_eq.2 h
theorem out6 (v : Byte) : Statement (.out6 v) := by
  have h := fieldsWord_and_high 2 6 v
  exact beq_iff_eq.2 h
theorem genint (t : Time) (c : Cycles) : Statement (.genint t c) := by
  have h : (fieldsWord 3 0 0 &&& 0xFFFFFFFF#32 == 0x3000000#32) = true := by decide
  exact h
theorem blit (d n s a m : Nat) : Statement (.blit d n s a m) := by
  have h : (fieldsWord 4 0 0 &&& 0xFFFFFFFF#32 == 0x4000000#32) = true := by decide
  exact h
theorem setopt (o : Options) : Statement (.setopt o) := by
  have h : (fieldsWord 5 0 0 &&& 0xFFFFFFFF#32 == 0x5000000#32) = true := by decide
  exact h
theorem qwidth : Statement .qwidth := by unfold Statement; decide
theorem qheight : Statement .qheight := by unfold Statement; decide
theorem reset : Statement .reset := by unfold Statement; decide

end Sys2Proof.Laws.EncodesItsRow
end

