-- ==== Sys2Proof/Laws/Time.lean ====
section
/-! SUPPORT. The scheduler over any type of times, and what renaming the times of a state does to each field and to the guard. -/

namespace Sys2Proof.Machine

section
variable {τ γ σ : Type} [DecidableEq τ]

theorem Scheduler.sample_of_eq {n : Scheduler τ} {t : τ} (h : t = n.lastSampledTime) (c : γ) :
    n.sample t c = (.none, n) := by simp [Scheduler.sample, h]

theorem Scheduler.sample_of_ne {n : Scheduler τ} {t : τ} (h : t ≠ n.lastSampledTime) (c : γ) :
    n.sample t c = (n.nextInterrupt.code, ⟨n.nextInterrupt.flip, t⟩) := by simp [Scheduler.sample, h]

/-- A renaming that keeps the presented time and the last one apart commutes with a sample. -/
theorem Scheduler.sample_map [DecidableEq σ] {γ' : Type} (f : τ → σ) (n : Scheduler τ) (t : τ) (c : γ) (c' : γ')
    (h : f t = f n.lastSampledTime → t = n.lastSampledTime) :
    (n.map f).sample (f t) c' = ((n.sample t c).1, (n.sample t c).2.map f) := by
  by_cases ht : t = n.lastSampledTime
  · rw [sample_of_eq (by simp [map, ht]), sample_of_eq ht]
  · rw [sample_of_ne (by simpa [map] using fun e => ht (h e)), sample_of_ne ht]
    rfl

omit [DecidableEq τ] in
@[simp] theorem Scheduler.map_initial (f : τ → σ) (r : τ) : (Scheduler.initial r).map f = Scheduler.initial (f r) := rfl

@[simp] theorem Scheduler.after_nil (r : τ) (n : Scheduler τ) : n.after r ([] : List (ClockCall τ γ)) = n := rfl

@[simp] theorem Scheduler.after_cons (r : τ) (n : Scheduler τ) (call : ClockCall τ γ) (calls : List (ClockCall τ γ)) :
    n.after r (call :: calls) = (call.apply r n).2.after r calls := rfl

end

variable {τ σ γ δ : Type} (f : τ → σ) (g : γ → δ) (s : State τ γ)

@[simp] theorem State.rename_shiftRegister : (s.rename f g).shiftRegister = s.shiftRegister := rfl
@[simp] theorem State.rename_shiftAmount : (s.rename f g).shiftAmount = s.shiftAmount := rfl
@[simp] theorem State.rename_port3Latch : (s.rename f g).port3Latch = s.port3Latch := rfl
@[simp] theorem State.rename_port5Latch : (s.rename f g).port5Latch = s.port5Latch := rfl
@[simp] theorem State.rename_nextInterrupt : (s.rename f g).nextInterrupt = s.nextInterrupt := rfl
@[simp] theorem State.rename_pixelDepth : (s.rename f g).pixelDepth = s.pixelDepth := rfl
@[simp] theorem State.rename_orientation : (s.rename f g).orientation = s.orientation := rfl
@[simp] theorem State.rename_foregroundColour : (s.rename f g).foregroundColour = s.foregroundColour := rfl
@[simp] theorem State.rename_fault : (s.rename f g).fault = s.fault := rfl
@[simp] theorem State.rename_refused : (s.rename f g).refused = s.refused := rfl
@[simp] theorem State.rename_mem : (s.rename f g).mem = s.mem := rfl
@[simp] theorem State.rename_reply : (s.rename f g).reply = s.reply := rfl
@[simp] theorem State.rename_draws : (s.rename f g).draws = s.draws := rfl
@[simp] theorem State.rename_lastSampledTime : (s.rename f g).lastSampledTime = f s.lastSampledTime := rfl
@[simp] theorem State.rename_config :
    (s.rename f g).config = Config.rename f s.config := rfl
@[simp] theorem State.rename_pending : (s.rename f g).pending = s.pending.map (HostAction.rename f g) := rfl
@[simp] theorem State.rename_scheduler : (s.rename f g).scheduler = s.scheduler.map f := rfl

@[simp] theorem State.rename_times : (s.rename f g).times = s.times.map f := by
  have actions : ∀ l : List (HostAction τ γ), (l.map (HostAction.rename f g)).filterMap HostAction.time =
      (l.filterMap HostAction.time).map f := by
    intro l
    induction l with
    | nil => rfl
    | cons x l ih => cases x <;> simp [List.filterMap_cons, HostAction.rename, HostAction.time, SideOperands.rename, ih]
  simp [State.times, Config.rename, actions]

/-- The block just created, renamed, is the block created under the renamed parameters. -/
@[simp] theorem State.rename_resetWith (config : Config τ) :
    (State.resetWith config : State τ γ).rename f g = State.resetWith (Config.rename f config) := rfl

/-- The guard does not look at times: it renames what it lets through. -/
theorem whenRunning_rename (k : Result τ γ) :
    whenRunning (s.rename f g) (renameOutcome f g k) = renameOutcome f g (whenRunning s k) := by
  cases hf : s.fault with
  | some x => rw [whenRunning_of_fault (by simpa using hf), whenRunning_of_fault hf]; rfl
  | none =>
    cases hr : s.refused with
    | true => rw [whenRunning_of_refused (by simpa using hf) (by simpa using hr), whenRunning_of_refused hf hr]; rfl
    | false => rw [whenRunning_of_running ⟨by simpa using hf, by simpa using hr⟩, whenRunning_of_running ⟨hf, hr⟩]

section
variable [DecidableEq τ]

/-- One more step at the front of a run. -/
theorem coreAt_run_succ (config : Config τ) (k : Nat) (s : State τ γ) :
    (coreAt γ config).run (k + 1) s =
      match stepAt s with
      | .next t => (coreAt γ config).run k t
      | .fault r => .fault r
      | .refused r => .refused r := by
  simp only [Host.Core.run]
  cases h : stepAt s <;> simp [coreAt, h]

/-- A run does not look at the machine's reset state, so the parameters that name it do not matter to it. -/
theorem coreAt_run (config config' : Config τ) (k : Nat) :
    ∀ s : State τ γ, (coreAt γ config).run k s = (coreAt γ config').run k s := by
  induction k with
  | zero => exact fun _ => rfl
  | succ k ih =>
    intro s
    rw [coreAt_run_succ, coreAt_run_succ]
    cases stepAt s with
    | next t => exact ih t
    | fault r => rfl
    | refused r => rfl

@[simp] theorem runAt_zero (s : State τ γ) : runAt 0 s = .next s := rfl

/-- One more step at the front of a run: everything it can come to. -/
theorem runAt_succ (k : Nat) (s : State τ γ) :
    runAt (k + 1) s =
      match stepAt s with
      | .next t => runAt k t
      | .fault r => .fault r
      | .refused r => .refused r := by
  rw [runAt, coreAt_run_succ]
  cases stepAt s with
  | next t => exact coreAt_run _ _ k t
  | fault r => rfl
  | refused r => rfl

end

end Sys2Proof.Machine
end

