-- ==== Sys2Proof/Tests/Slice0.lean ====
section
/-! SUPPORT. Tests of one step each, their expected results taken from spec/95_test_vectors.md, and a witness for the
hypotheses of each statement. -/

namespace Sys2Proof.Machine.Tests

/-- The state an operation completes in. -/
def stateAfter : Result → Option State
  | .next t => some t
  | .fault _ => none
  | .refused _ => none

def replyAfter (r : Result) : Option Reply := (stateAfter r).bind State.reply

def faultAfter (r : Result) : Option Fault := (stateAfter r).bind State.fault

def shiftState (sr : BitVec 16) (sa : BitVec 3) : State := { State.reset with shiftRegister := sr, shiftAmount := sa }

def blitState (o : Orientation) (depth : Depth) (mem : Memory) : State :=
  { State.reset with orientation := o, pixelDepth := .bits depth, mem := mem }

def oneBit : State := blitState .cocktail .one []

def issued (w : Word) : State := { State.reset with pending := [.issue ⟨w, SideOperands.zero⟩] }

/-! ## Well-formedness -/

theorem test_wf_integer_spelled_as_num : (Instr.setopt (.pairs [("bpp", .num ⟨8, 0, none⟩)]) : Instr).wellFormed = false := by decide

theorem test_wf_number_with_fraction : (Instr.setopt (.pairs [("bpp", .num ⟨80, 1, none⟩)]) : Instr).wellFormed = true := by decide

/-! ## Decoding: words written out from 30_encoding.md R72 and R75 -/

theorem test_decode_in0 : decodeTableWord 32 0b00000001_00000000_00000000_00000000 = some .in0 := by decide
theorem test_decode_in1 : decodeTableWord 32 0b00000001_00000001_00000000_00000000 = some .in1 := by decide
theorem test_decode_in2 : decodeTableWord 32 0b00000001_00000010_00000000_00000000 = some .in2 := by decide
theorem test_decode_in3 : decodeTableWord 32 0b00000001_00000011_00000000_00000000 = some .in3 := by decide
theorem test_decode_in4 : decodeTableWord 32 0b00000001_00000100_00000000_00000000 = some .in4 := by decide
theorem test_decode_in5 : decodeTableWord 32 0b00000001_00000101_00000000_00000000 = some .in5 := by decide
theorem test_decode_in6 : decodeTableWord 32 0b00000001_00000110_00000000_00000000 = some .in6 := by decide
theorem test_decode_out2 : decodeTableWord 32 0b00000010_00000010_00000000_11111011 = some (.out2 0xFB) := by decide
theorem test_decode_out3 : decodeTableWord 32 0b00000010_00000011_00000000_00000001 = some (.out3 0x01) := by decide
theorem test_decode_out4 : decodeTableWord 32 0b00000010_00000100_00000000_00010010 = some (.out4 0x12) := by decide
theorem test_decode_out5 : decodeTableWord 32 0b00000010_00000101_00000000_11110000 = some (.out5 0xF0) := by decide
theorem test_decode_out6 : decodeTableWord 32 0b00000010_00000110_00000000_01011010 = some (.out6 0x5A) := by decide
theorem test_decode_qwidth : decodeTableWord 32 0b00000110_00000000_00000000_00000000 = some .qwidth := by decide
theorem test_decode_qheight : decodeTableWord 32 0b00000111_00000000_00000000_00000000 = some .qheight := by decide
theorem test_decode_reset : decodeTableWord 32 0b00001000_00000000_00000000_00000000 = some .reset := by decide

/-- P3, steps 1, 4 and 7: the side operands travel beside the word, in the order of R70. -/
theorem test_decode_genint :
    decode (⟨0b00000011_00000000_00000000_00000000, { SideOperands.zero with time := ⟨1⟩, cycles := ⟨9⟩ }⟩ : Command) =
      .instr (.genint ⟨1⟩ ⟨9⟩) := by decide
theorem test_decode_blit :
    decode (⟨0b00000100_00000000_00000000_00000000, ⟨⟨0⟩, ⟨0⟩, 0x10000, 7168, 28, 0x2400, 7168, .pairs []⟩⟩ : Command) =
      .instr (.blit 0x10000 7168 28 0x2400 7168) := by decide
theorem test_decode_setopt :
    decode ⟨0b00000101_00000000_00000000_00000000, { SideOperands.zero with options := .pairs [("bpp", .int 1)] }⟩ =
      .instr (.setopt (.pairs [("bpp", .int 1)])) := by decide

/-- L2.8: words that spell nothing, one for each bullet of R77. -/
theorem test_decode_class_zero : decode ⟨0x00000000, SideOperands.zero⟩ = .badCmd 0x00000000 := by decide
theorem test_decode_class_nine : decode ⟨0x09000000, SideOperands.zero⟩ = .badCmd 0x09000000 := by decide
theorem test_decode_in_with_data : decode ⟨0x01030001, SideOperands.zero⟩ = .badCmd 0x01030001 := by decide
theorem test_decode_reserved_set : decode ⟨0x02030100, SideOperands.zero⟩ = .badCmd 0x02030100 := by decide
theorem test_decode_genint_with_port : decode ⟨0x03010000, SideOperands.zero⟩ = .badCmd 0x03010000 := by decide
theorem test_decode_in7 : decode ⟨0x01070000, SideOperands.zero⟩ = .badPort 7 := by decide
theorem test_decode_out0 : decode ⟨0x02000000, SideOperands.zero⟩ = .badPort 0 := by decide

/-- No word spells two rows: any two rows differ in a bit both masks take. -/
theorem test_rows_disjoint :
    opcodeTable.Pairwise (fun r q => r.pattern &&& (r.mask &&& q.mask) ≠ q.pattern &&& (r.mask &&& q.mask)) := by decide

/-! ## Port reads: L2.1 -/

theorem test_in0 : replyAfter (exec .in0 State.reset) = some (.byte 0x40) := by decide
theorem test_in1 : replyAfter (exec .in1 State.reset) = some (.byte 0x00) := by decide
theorem test_in2_not_the_amount : replyAfter (exec .in2 (shiftState 0xABCD 5)) = some (.byte 0x00) := by decide
theorem test_in3_amount_3 : replyAfter (exec .in3 (shiftState 0xABCD 3)) = some (.byte 0x5E) := by decide
theorem test_in3_nothing_wraps : replyAfter (exec .in3 (shiftState 0x8000 1)) = some (.byte 0x00) := by decide
theorem test_in4_not_the_register : replyAfter (exec .in4 (shiftState 0xABCD 0)) = some (.byte 0x00) := by decide
theorem test_in5_not_the_latch :
    replyAfter (exec .in5 { State.reset with port5Latch := 0xFF }) = some (.byte 0x00) := by decide
theorem test_in6 : replyAfter (exec .in6 State.reset) = some (.byte 0x00) := by decide

/-! ## Port writes: L2.2 -/

theorem test_out2_drops_high_bits : (stateAfter (exec (.out2 0xFB) State.reset)).map State.shiftAmount = some 3 := by decide
theorem test_out3_mask : replyAfter (exec (.out3 0xAA) { State.reset with port3Latch := 0x55 }) = some (.byte 0xAB) := by
  decide
theorem test_out3_release : replyAfter (exec (.out3 0x00) { State.reset with port3Latch := 0x03 }) = some (.byte 0x01) := by
  decide
theorem test_out4_insert :
    (stateAfter (exec (.out4 0xAB) (shiftState 0x1234 0))).map State.shiftRegister = some 0xAB12 := by decide
theorem test_out5_mask : replyAfter (exec (.out5 0xFF) { State.reset with port5Latch := 0xF0 }) = some (.byte 0x0F) := by
  decide
theorem test_out5_latch : (stateAfter (exec (.out5 0xF0) State.reset)).map State.port5Latch = some 0xF0 := by decide
theorem test_out6 : stateAfter (exec (.out6 0x5A) State.reset) = some { State.reset with reply := some (.byte 0x00) } := by
  decide
theorem test_step_in255_faults : faultAfter (step (issued 0x01FF0000)) = some (.badPort 255) := by decide
theorem test_step_out7_faults : faultAfter (step (issued 0x02070001)) = some (.badPort 7) := by decide

/-! ## GENINT: L2.3 -/

theorem test_genint_smaller_time_fires :
    replyAfter (exec (.genint ⟨2⟩ ⟨0⟩) { State.reset with lastSampledTime := ⟨3⟩, nextInterrupt := .two }) =
      some (.interrupt .vblank) := by decide
theorem test_genint_first_call_at_reset_time :
    stateAfter (exec (.genint ⟨0⟩ ⟨0⟩) State.reset) = some { State.reset with reply := some (.interrupt .none) } := by decide

/-! ## BLIT: L2.4. Line 9, byte 2 is 0x80: pixel 23 of line 9. -/

theorem test_blit_cocktail1 : outputByte .cocktail .one 0xFF [(0x2400 + 290, 0x80)] 0x2400 9 2 = 0x80 := by decide
theorem test_blit_cocktail8 : outputByte .cocktail .eight 0xFF [(0x2400 + 290, 0x80)] 0x2400 9 23 = 0xFF := by decide
theorem test_blit_upright1 : outputByte .upright .one 0xFF [(0x2400 + 290, 0x80)] 0x2400 232 1 = 0x02 := by decide
theorem test_blit_upright8 : outputByte .upright .eight 0x80 [(0x2400 + 290, 0x80)] 0x2400 232 9 = 0x80 := by decide

/-- The second row of the table, c1 with stride 32: offset 0x122 holds 0x80. -/
theorem test_blit_places_byte :
    (stateAfter (exec (.blit 0x8000 7168 32 0x2400 7168) (blitState .cocktail .one [(0x2400 + 290, 0x80)]))).map
      (fun t => t.mem.read (0x8000 + 0x122)) = some 0x80 := by decide +kernel

theorem test_blit_unset_mode_first : faultAfter (exec (.blit 0x8000 7168 32 0x2400 100) State.reset) = some .badMode := by
  decide

/-! ## SETOPT: L2.5 -/

/-- L1, §8 item 8. -/
theorem test_setopt_partial_failure :
    (stateAfter (exec (.setopt (.pairs [("bpp", .int 4), ("colour", .str "green"), ("orientation", .str "upright")]))
      State.reset)).map (fun t => (t.pixelDepth, t.foregroundColour, t.orientation)) =
      some (.unset, 0x14, .upright) := by decide
theorem test_setopt_hex_colour :
    (stateAfter (exec (.setopt (.pairs [("colour", .str "A0")])) State.reset)).map State.foregroundColour = some 0xA0 := by
  decide

/-! ## QWIDTH, QHEIGHT and RESET: L2.6, L2.7 -/

theorem test_qwidth : replyAfter (exec .qwidth (blitState .upright .eight [])) = some (.dimension 224) := by decide
theorem test_qheight : replyAfter (exec .qheight State.reset) = some (.dimension 224) := by decide
theorem test_reset_keeps_memory_and_resets_colour :
    (stateAfter (exec .reset { blitState .upright .one [(5, 1)] with foregroundColour := 0x14 })).map
      (fun t => (t.mem, t.foregroundColour, t.pixelDepth)) = some ([(5, 1)], 0xFF, .unset) := by decide

/-- The host's question: the word stored for the next step is the operation that runs. -/
theorem test_withFetchWord_runs_next : replyAfter (step (State.reset.withFetchWord 32 0x01000000)) = some (.byte 0x40) := by
  decide

/-! ## Witnesses: concrete states and operands that meet all hypotheses of a statement, one for each of its clauses -/

/-- For the statements whose one hypothesis is a running block: ReadPort0ReturnsIdleInput, OtherPortsReadZero,
ReadPort3ReturnsShiftWindow, WritePort2SetsShiftAmount, WritePort3TriggersAudio, WritePort4InsertsByte,
WritePort5TriggersAudio, WritePort6IsNoOp, PseudoOperationsDoWhatTheyStandFor, GenintReturnsOneOfThreeCodes,
SetoptParseFailureChangesNothing, ResetWritesItsFields, ResetDefaultsOfTheSource. -/
theorem witness_running : (shiftState 0xABCD 7).Running ∧ (shiftState 0xABCD 0).Running := by decide

theorem witness_StepRunsDecodedInstruction :
    (issued 0x01000000).Running ∧ (issued 0x01000000).pending = [.issue ⟨0x01000000, SideOperands.zero⟩] ∧
      decode ⟨0x01000000, SideOperands.zero⟩ = .instr .in0 := by decide

theorem witness_BadCommandFaults :
    (issued 0x09000000).Running ∧ (issued 0x09000000).pending = [.issue ⟨0x09000000, SideOperands.zero⟩] ∧
      decode ⟨0x09000000, SideOperands.zero⟩ = .badCmd 0x09000000 := by decide

theorem witness_EncodeRestoresDecodedWord : decode ⟨0x02040012, SideOperands.zero⟩ = .instr (.out4 0x12) := by decide

/-- The first and the last invalid port. -/
theorem witness_ReadOfInvalidPortFaults :
    (issued 0x01070000).pending = [.issue ⟨BitVec.ofNat 32 (0x01000000 + 7 * 0x10000), SideOperands.zero⟩] ∧
      (issued 0x01FF0000).pending = [.issue ⟨BitVec.ofNat 32 (0x01000000 + 255 * 0x10000), SideOperands.zero⟩] ∧
      (issued 0x01070000).Running := by decide

theorem witness_WriteOfInvalidPortFaults :
    (issued 0x02070001).pending = [.issue ⟨BitVec.ofNat 32 (0x02000000 + 7 * 0x10000 + 1), SideOperands.zero⟩] ∧
      (issued 0x02FF00FF).pending = [.issue ⟨BitVec.ofNat 32 (0x02000000 + 255 * 0x10000 + 255), SideOperands.zero⟩] ∧
      (issued 0x02070001).Running := by decide

theorem witness_WriteOfReadOnlyPortFaults :
    (issued 0x02000000).pending = [.issue ⟨BitVec.ofNat 32 (0x02000000 + 0 * 0x10000 + 0), SideOperands.zero⟩] ∧
      (issued 0x020100FF).pending = [.issue ⟨BitVec.ofNat 32 (0x02000000 + 1 * 0x10000 + 255), SideOperands.zero⟩] ∧
      (issued 0x02000000).Running := by decide

theorem witness_RepeatedAudioWriteTriggersOnlyHeldBit :
    (∃ t, exec (.out5 0xFF) State.reset = .next t) ∧ ∃ t, exec (.out3 0xFF) State.reset = .next t := ⟨⟨_, rfl⟩, ⟨_, rfl⟩⟩

theorem witness_ShiftDrawsBecomeUnobservable :
    ({ State.reset with pending := script [.out4 0x34, .out4 0x12, .out2 4] } : State).pending =
      script [.out4 0x34, .out4 0x12, .out2 4] ++ [] := by decide

/-- The three clauses: an equal time, and a changed one in each scheduler state. -/
theorem witness_GenintFiresOnChangedTime :
    State.reset.Running ∧ ⟨0⟩ = State.reset.lastSampledTime ∧ ⟨1⟩ ≠ State.reset.lastSampledTime ∧
      State.reset.nextInterrupt = .one ∧ ({ State.reset with nextInterrupt := .two } : State).nextInterrupt = .two := by
  decide

def halfFrames : List (Time × Cycles) := [(⟨1⟩, ⟨0⟩), (⟨2⟩, ⟨0⟩), (⟨3⟩, ⟨0⟩)]

theorem witness_InterruptCodesAlternate :
    ({ State.reset with pending := script (halfFrames.map fun c => .genint c.1 c.2) } : State).Running ∧
      List.IsChain (· ≠ ·) (State.reset.lastSampledTime :: halfFrames.map Prod.fst) := by decide

/-- Two times, no cycle count, and a run that fires, resets, stays silent and fires. -/
def twoTimes : List (ClockCall Bool Unit) := [.genint true (), .reset, .genint false ()]

theorem witness_SchedulerTakesAnyTimeType :
    let f : Bool → Time := fun t => if t then ⟨7⟩ else ⟨0⟩
    let s : State := { State.reset with pending := script ((twoTimes ++ [ClockCall.genint true ()]).map (·.instr f fun _ => ⟨5⟩)) }
    (∀ t ∈ [false, true], ∀ u ∈ [false, true], f t = f u → t = u) ∧ s.Running ∧
      s.scheduler = (Scheduler.initial false).map f ∧ s.config.lastTimeReset = f false := by decide

/-- A machine with two times and one cycle count, whose host issues a GENINT and a RESET. -/
def twoTimesState : State Bool Unit :=
  { (State.resetWith ⟨false, .unset, 16⟩ : State Bool Unit) with
    pending := [.issue ⟨0x03000000, ⟨true, (), 0, 0, 0, 0, 0, .pairs []⟩⟩,
      .issue ⟨0x08000000, ⟨false, (), 0, 0, 0, 0, 0, .pairs []⟩⟩] }

theorem test_genint_any_time_type :
    (match stepAt twoTimesState with
      | .next t => some (t.lastSampledTime, t.nextInterrupt, t.reply)
      | .fault _ => none
      | .refused _ => none) = some (true, .two, some (.interrupt .midScreen)) := by decide

theorem witness_StepReadsOnlyEqualityOfTimes :
    ∀ t ∈ twoTimesState.times, ∀ u ∈ twoTimesState.times,
      (fun t => if t then (⟨7⟩ : Time) else ⟨0⟩) t = (fun t => if t then ⟨7⟩ else ⟨0⟩) u → t = u := by decide

theorem witness_BlitWithoutDepthFaults : State.reset.Running ∧ State.reset.pixelDepth = .unset := by decide

/-- Cocktail, 1 bit; one operand of each clause at its boundary: a source one byte short and one byte past the host's space,
a stride one byte short, a destination one byte short and one byte past the space, an overlap of one byte at either end. -/
theorem witness_BlitChecksPreconditionsInOrder :
    oneBit.Running ∧ oneBit.pixelDepth = .bits .one ∧ oneBit.orientation = .cocktail ∧
      7167 ≠ 7168 ∧ 2 ^ oneBit.config.hostAddrBits < (2 ^ 32 - 7167) + 7168 ∧
      (2 ^ 32 - 7168) + 7168 ≤ 2 ^ oneBit.config.hostAddrBits ∧ 31 < 32 ∧ 7167 < 32 * 224 ∧
      2 ^ oneBit.config.hostAddrBits < (2 ^ 32 - 7167) + 7168 ∧
      (0x2400 < 0x3FFF + 32 * 224 ∧ 0x3FFF < 0x2400 + 7168) ∧
      (0x2400 < (0x2400 - 7167) + 32 * 224 ∧ 0x2400 - 7167 < 0x2400 + 7168) := by decide

/-- For BlitCompletesAndKeepsTheRest, CocktailOneBitCopiesRows and BlitRefinesTheLoops: the least stride, and a destination
that begins where the source ends. -/
theorem witness_CocktailOneBit :
    oneBit.Running ∧ oneBit.mem.wf = true ∧ oneBit.orientation = .cocktail ∧ oneBit.pixelDepth = .bits .one ∧
      BuffersMeet oneBit.config.hostAddrBits 0x4000 7168 32 0x2400 7168 224 32 :=
  ⟨by decide, by decide, rfl, rfl, ⟨by decide, by decide, by decide, by decide, by decide, by decide⟩⟩

theorem witness_CocktailEightBitExpandsPixels :
    (blitState .cocktail .eight []).Running ∧
      BuffersMeet (blitState .cocktail .eight []).config.hostAddrBits 0x8000 57344 256 0x2400 7168 224 256 :=
  ⟨by decide, ⟨by decide, by decide, by decide, by decide, by decide, by decide⟩⟩

theorem witness_UprightOneBitRotatesPixels :
    (blitState .upright .one []).Running ∧
      BuffersMeet (blitState .upright .one []).config.hostAddrBits 0x10000 7168 28 0x2400 7168 256 28 :=
  ⟨by decide, ⟨by decide, by decide, by decide, by decide, by decide, by decide⟩⟩

theorem witness_UprightEightBitRotatesPixels :
    (blitState .upright .eight []).Running ∧
      BuffersMeet (blitState .upright .eight []).config.hostAddrBits 0x10000 57344 224 0x2400 7168 256 224 :=
  ⟨by decide, ⟨by decide, by decide, by decide, by decide, by decide, by decide⟩⟩

/-- The destination just below the source, and just above it. -/
theorem witness_SourceTraversalGivesUprightMapping :
    Memory.wf [(7168, 0x01#8)] = true ∧ 28 ≤ 28 ∧ 0 + 28 * 256 ≤ 7168 ∧ 7168 + 7168 ≤ 14336 := by decide

theorem witness_DepthsShowTheSameImage :
    (∃ t, exec (.blit 0x8000 7168 32 0x2400 7168) { State.reset with pixelDepth := .bits .one } = .next t ∧ t.fault = none) ∧
      (∃ t, exec (.blit 0x8000 57344 256 0x2400 7168) { State.reset with pixelDepth := .bits .eight } = .next t ∧
        t.fault = none) ∧
      223 < outputHeight State.reset.orientation ∧ 255 < outputWidth State.reset.orientation :=
  ⟨⟨_, rfl, rfl⟩, ⟨_, rfl, rfl⟩, by decide, by decide⟩

/-- For QwidthReturnsPixelWidth, QheightReturnsPixelHeight and DimensionsDependOnOrientationOnly: both orientations. -/
theorem witness_dimension_queries :
    (blitState .cocktail .one []).Running ∧ (blitState .cocktail .one []).orientation = .cocktail ∧
      (blitState .upright .one []).Running ∧ (blitState .upright .one []).orientation = .upright := by decide

/-- The two refused forms: `bpp` twice, and `bpp` 8.0. -/
theorem witness_SetoptRefusesUnsettledForms :
    ¬NoDuplicateKey [("bpp", .int 1), ("bpp", .int 8)] ∧
      NoDuplicateKey [("bpp", .num ⟨80, 1, none⟩)] ∧ ¬NoAmbiguousBpp [("bpp", .num ⟨80, 1, none⟩)] := by
  refine ⟨by unfold NoDuplicateKey; decide, by unfold NoDuplicateKey; decide, fun h => ?_⟩
  exact (h ⟨80, 1, none⟩ (by simp)).2 (by norm_num [decimalValue])

/-- The three clauses: 1, 8, and a value that fails. -/
theorem witness_SetoptBppKey :
    State.reset.Running ∧ NoAmbiguousBpp [("bpp", .int 1)] ∧ NoAmbiguousBpp [("bpp", .int 8)] ∧
      NoAmbiguousBpp [("bpp", .str "8")] ∧ Value.str "8" ≠ .int 1 ∧ Value.str "8" ≠ .int 8 :=
  ⟨by decide, by simp [NoAmbiguousBpp], by simp [NoAmbiguousBpp], by simp [NoAmbiguousBpp], by decide, by decide⟩

/-- Hex digits at the ends of their ranges, and a value that is no string. -/
theorem witness_SetoptColourKey :
    State.reset.Running ∧ HexDigitIs '0' 0 ∧ HexDigitIs '9' 9 ∧ HexDigitIs 'a' 10 ∧ HexDigitIs 'F' 15 ∧
      (∀ name ∈ ["red", "green", "blue", "white", "random"], Value.null ≠ .str name) ∧
      ∀ c0 c1 h0 h1, HexDigitIs c0 h0 → HexDigitIs c1 h1 → Value.null ≠ .str (String.ofList [c0, c1]) :=
  ⟨by decide, .inl (by decide), .inr (by decide), .inl (by decide), .inr (by decide), by simp, by simp⟩

theorem witness_SetoptOrientationKey :
    State.reset.Running ∧ Value.int 1 ≠ .str "upright" ∧ Value.int 1 ≠ .str "cocktail" := by decide

def partialFailure : List (String × Value) :=
  [("bpp", .int 4), ("colour", .str "random"), ("orientation", .str "upright")]

theorem witness_SetoptAppliesEachKeyIndependently :
    State.reset.Running ∧ NoDuplicateKey partialFailure ∧ NoAmbiguousBpp partialFailure :=
  ⟨by decide, by unfold NoDuplicateKey; decide, by simp [NoAmbiguousBpp, partialFailure]⟩

theorem witness_SetoptIgnoresUnrecognizedKeys :
    State.reset.Running ∧ ∀ pair ∈ [("color", Value.str "red"), ("BPP", .int 8)],
      pair.1 ≠ "bpp" ∧ pair.1 ≠ "colour" ∧ pair.1 ≠ "orientation" := by decide

theorem witness_SetoptOrderDoesNotMatter :
    List.Perm [("bpp", Value.int 4), ("colour", .null)] [("colour", .null), ("bpp", Value.int 4)] := by decide

theorem witness_MarkedBlockTakesNoStep :
    ({ State.reset with fault := some .badMode } : State).fault = some .badMode ∧
      ({ State.reset with refused := true } : State).fault = none ∧
      ({ State.reset with refused := true } : State).refused = true := by decide

theorem witness_FaultingStepChangesNothingElse :
    (∃ t, step (issued 0x00000000) = .next t ∧ t.fault = some (.badCmd 0x00000000)) ∧
      ∃ t, step { State.reset with
        pending := [.issue (encode (.setopt (.pairs [("bpp", .int 1), ("bpp", .int 8)])))] } = .next t ∧
        t.refused = true := ⟨⟨_, rfl, rfl⟩, ⟨_, rfl, rfl⟩⟩

theorem witness_OnlyBlitCanFault : State.reset.Running ∧ ∀ d n stride a m, (Instr.reset : Instr) ≠ .blit d n stride a m :=
  ⟨by decide, by simp⟩

theorem witness_OnlyBlitTouchesHostMemory :
    (∃ t, exec .in0 State.reset = .next t) ∧
      (∃ t, exec (.blit 0x8000 7168 32 0x2400 7168) oneBit = .next t ∧ t.fault = none) ∧
      ∀ o, o < 7168 → Memory.read [(0, 1)] (0x2400 + o) = oneBit.mem.read (0x2400 + o) :=
  ⟨⟨_, rfl⟩, ⟨_, rfl, rfl⟩, fun o _ => by
    rw [Memory.read_cons, if_neg (by omega)]
    rfl⟩

theorem witness_FieldsChangeOnlyByTheirWriters :
    (∃ t, exec (.out4 0xAB) State.reset = .next t ∧ t.shiftRegister ≠ State.reset.shiftRegister) ∧
      (Instr.out4 0xAB : Instr) ≠ .reset := ⟨⟨_, rfl, by decide⟩, by decide⟩

theorem witness_StepKeepsInv :
    (issued 0x02040012).Inv ∧ ∃ t, step (issued 0x02040012) = .next t :=
  ⟨⟨by decide, by decide, by decide, .inl rfl, fun _ h => by cases h⟩, ⟨_, rfl⟩⟩

/-- The three clauses, the stores at the last address of the host's space and the first past it. -/
theorem witness_HostMovesBetweenOperations :
    State.reset.Running ∧ State.reset.pending = [] ∧ State.reset.mem.wf = true ∧
      2 ^ 32 - 1 < 2 ^ State.reset.config.hostAddrBits ∧ 2 ^ State.reset.config.hostAddrBits ≤ 2 ^ 32 := by decide

end Sys2Proof.Machine.Tests
end

section
/-! ## Renaming the times and the cycle counts of instructions, commands and operations (00_scope.md R8, D9) -/

namespace Sys2Proof

variable {τ σ γ δ : Type} (f : τ → σ) (g : γ → δ)

/-- GENINT's two operands under other names; every other instruction has neither. -/
def Instr.rename : Instr τ γ → Instr σ δ
  | .in0 => .in0
  | .in1 => .in1
  | .in2 => .in2
  | .in3 => .in3
  | .in4 => .in4
  | .in5 => .in5
  | .in6 => .in6
  | .out2 v => .out2 v
  | .out3 v => .out3 v
  | .out4 v => .out4 v
  | .out5 v => .out5 v
  | .out6 v => .out6 v
  | .genint t c => .genint (f t) (g c)
  | .blit d n s a m => .blit d n s a m
  | .setopt o => .setopt o
  | .qwidth => .qwidth
  | .qheight => .qheight
  | .reset => .reset

/-- The time an instruction carries: GENINT's. -/
def Instr.time : Instr τ γ → Option τ
  | .genint t _ => some t
  | _ => none

/-- A decoded operation under other names for its time and its cycle count. -/
def Operation.rename : Operation τ γ → Operation σ δ
  | .input p => .input p
  | .output p v => .output p v
  | .genint t c => .genint (f t) (g c)
  | .blit d n s a m => .blit d n s a m
  | .setopt o => .setopt o
  | .qwidth => .qwidth
  | .qheight => .qheight
  | .reset => .reset

/-- What a command decodes to, under other names. -/
def Decoded.rename : Decoded τ γ → Decoded σ δ
  | .instr i => .instr (i.rename f g)
  | .badCmd w => .badCmd w
  | .badPort p => .badPort p

theorem plainOperation_rename (cls : Byte) (o : SideOperands τ γ) :
    plainOperation cls (Machine.SideOperands.rename f g o) = (plainOperation cls o).map (Operation.rename f g) := by
  unfold plainOperation
  split <;> rfl

theorem decodeOperation_rename (w : Word) (o : SideOperands τ γ) :
    decodeOperation w (Machine.SideOperands.rename f g o) = (decodeOperation w o).map (Operation.rename f g) := by
  rw [decodeOperation, decodeOperation, plainOperation_rename]
  split_ifs <;> rfl

theorem portRead_rename (p : Byte) : (portRead p : Option (Instr σ δ)) = (portRead p).map (Instr.rename f g) := by
  unfold portRead
  split <;> rfl

theorem portWrite_rename (p v : Byte) :
    (portWrite p v : Option (Instr σ δ)) = (portWrite p v).map (Instr.rename f g) := by
  unfold portWrite
  split <;> rfl

theorem Operation.select_rename (op : Operation τ γ) : (op.rename f g).select = op.select.rename f g := by
  cases op with
  | input p =>
    simp only [Operation.rename, Operation.select, portRead_rename f g p]
    cases portRead (τ := τ) (γ := γ) p <;> rfl
  | output p v =>
    simp only [Operation.rename, Operation.select, portWrite_rename f g p v]
    cases portWrite (τ := τ) (γ := γ) p v <;> rfl
  | _ => rfl

/-- The decoder reads neither a time nor a cycle count: it hands them over. -/
theorem decode_rename (c : Command τ γ) :
    decode ⟨c.word, Machine.SideOperands.rename f g c.side⟩ = (decode c).rename f g := by
  unfold decode
  rw [decodeOperation_rename]
  cases decodeOperation c.word c.side with
  | none => rfl
  | some op => exact Operation.select_rename f g op

/-- A decoded instruction carries no time but its command's: decoding commutes with giving every time that one's name. -/
theorem time_of_decode {c : Command τ γ} {i : Instr τ γ} (h : decode c = .instr i) {t : τ} (ht : i.time = some t) :
    t = c.side.time := by
  have hc : decode c = (decode c).rename (fun _ => c.side.time) id := decode_rename (fun _ => c.side.time) id c
  rw [h] at hc
  have hi : i = i.rename (fun _ => c.side.time) id := Decoded.instr.inj hc
  cases i with
  | genint u k =>
    obtain rfl : u = t := Option.some.inj ht
    exact (Instr.genint.inj hi).1
  | _ => cases ht

end Sys2Proof
end

section
/-! ## Every operation commutes with renaming (00_scope.md R8, D9; 42_interrupt.md R140) -/

namespace Sys2Proof.Machine

variable {τ σ γ δ : Type} (f : τ → σ) (g : γ → δ) (s : State τ γ)

theorem raise_rename (x : Fault) : raise x (s.rename f g) = renameOutcome f g (raise x s) := rfl

theorem refuse_rename : refuse (s.rename f g) = renameOutcome f g (refuse s) := rfl

theorem hostStore_rename (a : Nat) (v : Byte) :
    hostStore a v (s.rename f g) = renameOutcome f g (hostStore a v s) := by
  rw [hostStore, hostStore, apply_ite (renameOutcome f g)]
  rfl

theorem readPort_rename (v : Byte) : readPort v (s.rename f g) = renameOutcome f g (readPort v s) :=
  whenRunning_rename f g s (answer (.byte v) s)

theorem writePort_rename (mask : Byte) (t : State τ γ) :
    writePort mask (s.rename f g) (t.rename f g) = renameOutcome f g (writePort mask s t) :=
  whenRunning_rename f g s (answer (.byte mask) t)

/-- GENINT compares its time with the last sampled one, and does nothing else with either. -/
theorem execGenint_rename [DecidableEq τ] [DecidableEq σ] (t : τ) (c : γ)
    (h : f t = f s.lastSampledTime → t = s.lastSampledTime) :
    execGenint (f t) (g c) (s.rename f g) = renameOutcome f g (execGenint t c s) := by
  rw [execGenint, execGenint, ← whenRunning_rename, State.rename_scheduler, Scheduler.sample_map f _ t c _ h]
  rfl

theorem runBlit_rename (depth : Depth) (d stride a : Nat) :
    runBlit depth d stride a (s.rename f g) = renameOutcome f g (runBlit depth d stride a s) := rfl

theorem execBlit_rename (d n stride a m : Nat) :
    execBlit d n stride a m (s.rename f g) = renameOutcome f g (execBlit d n stride a m s) := by
  rw [execBlit, execBlit, ← whenRunning_rename]
  congr 1
  cases hd : s.pixelDepth with
  | unset => simp only [State.rename_pixelDepth, hd, raise_rename]
  | bits depth =>
    simp only [State.rename_pixelDepth, hd, State.rename_config, Config.rename, State.rename_orientation]
    cases blitViolation s.config.hostAddrBits d n stride a m (outputHeight s.orientation)
      (rowBytes s.orientation depth) with
    | some x => exact raise_rename f g s x
    | none => exact runBlit_rename f g s depth d stride a

theorem applyKeys_rename (b : KeyOutcome PixelDepth) (c : KeyOutcome Byte) (r : KeyOutcome Orientation) :
    applyKeys b c r (s.rename f g) = renameOutcome f g (applyKeys b c r s) := rfl

theorem setPairs_rename (o : List (String × Value)) :
    setPairs o (s.rename f g) = renameOutcome f g (setPairs o s) := by
  unfold setPairs
  split_ifs
  · exact refuse_rename f g s
  · exact refuse_rename f g s
  · exact applyKeys_rename f g s _ _ _

theorem execSetopt_rename (o : Options) : execSetopt o (s.rename f g) = renameOutcome f g (execSetopt o s) := by
  cases o with
  | parseFail => exact whenRunning_rename f g s (answer _ s)
  | pairs o =>
    exact (congrArg (whenRunning (s.rename f g)) (setPairs_rename f g s o)).trans
      (whenRunning_rename f g s (setPairs o s))

theorem execReset_rename : execReset (s.rename f g) = renameOutcome f g (execReset s) :=
  whenRunning_rename f g s (finish (resetFields (Config.srReset s.draws) (Config.saReset s.draws) s).afterDraw)

/-- Every operation commutes with a renaming that keeps the instruction's time and the last sampled one apart. -/
theorem execAt_rename [DecidableEq τ] [DecidableEq σ] (i : Instr τ γ)
    (h : ∀ t, i.time = some t → f t = f s.lastSampledTime → t = s.lastSampledTime) :
    execAt (i.rename f g) (s.rename f g) = renameOutcome f g (execAt i s) := by
  cases i with
  | in0 | in1 | in2 | in3 | in4 | in5 | in6 => exact readPort_rename f g s _
  | out2 v => exact writePort_rename f g s _ (s.setShiftAmount _)
  | out3 v => exact writePort_rename f g s _ (s.setPort3Latch v)
  | out4 v => exact writePort_rename f g s _ (s.setShiftRegister _)
  | out5 v => exact writePort_rename f g s _ (s.setPort5Latch v)
  | out6 v => exact writePort_rename f g s _ s
  | genint t c => exact execGenint_rename f g s t c (h t rfl)
  | blit d n stride a m => exact execBlit_rename f g s d n stride a m
  | setopt o => exact execSetopt_rename f g s o
  | qwidth | qheight => exact whenRunning_rename f g s (answer _ s)
  | reset => exact execReset_rename f g s

theorem runCommand_rename [DecidableEq τ] [DecidableEq σ] (c : Command τ γ)
    (h : f c.side.time = f s.lastSampledTime → c.side.time = s.lastSampledTime) :
    runCommand execAt ⟨c.word, SideOperands.rename f g c.side⟩ (s.rename f g) =
      renameOutcome f g (runCommand execAt c s) := by
  unfold runCommand
  rw [decode_rename]
  cases hd : decode c with
  | badCmd w => exact raise_rename f g s _
  | badPort p => exact raise_rename f g s _
  | instr i => exact execAt_rename f g s i fun t ht => time_of_decode hd ht ▸ h

end Sys2Proof.Machine
end

section
/-! ## A step by the host's oldest action, and its renaming -/

namespace Sys2Proof.Machine

variable {τ σ γ δ : Type} {s : State τ γ} {rest : List (HostAction τ γ)}

theorem lastSampledTime_mem_times (s : State τ γ) : s.lastSampledTime ∈ s.times := List.mem_cons_self

theorem lastTimeReset_mem_times (s : State τ γ) : s.config.lastTimeReset ∈ s.times :=
  List.mem_cons_of_mem _ List.mem_cons_self

theorem issued_time_mem_times {c : Command τ γ} (h : .issue c ∈ s.pending) : c.side.time ∈ s.times :=
  List.mem_cons_of_mem _ (List.mem_cons_of_mem _ (List.mem_filterMap.2 ⟨_, h, rfl⟩))

variable [DecidableEq τ]

theorem stepAt_of_idle (h : s.pending = []) : stepAt s = whenRunning s (.next s) := by
  simp only [stepAt, stepBy, h]

theorem stepAt_of_issue {c : Command τ γ} (h : s.pending = .issue c :: rest) :
    stepAt s = whenRunning s (runCommand execAt c (s.setPending rest)) := by
  simp only [stepAt, stepBy, h]

theorem stepAt_of_store {a : Nat} {v : Byte} (h : s.pending = .store a v :: rest) :
    stepAt s = whenRunning s (hostStore a v (s.setPending rest)) := by
  simp only [stepAt, stepBy, h]

/-- A step commutes with every renaming that keeps the state's times apart. -/
theorem stepAt_rename [DecidableEq σ] (f : τ → σ) (g : γ → δ) (s : State τ γ)
    (hf : Set.InjOn f { t | t ∈ s.times }) : stepAt (s.rename f g) = renameOutcome f g (stepAt s) := by
  cases hp : s.pending with
  | nil =>
    rw [stepAt_of_idle hp, stepAt_of_idle (by simp [hp])]
    exact whenRunning_rename f g s (.next s)
  | cons action rest =>
    cases action with
    | issue c =>
      have apart : f c.side.time = f s.lastSampledTime → c.side.time = s.lastSampledTime :=
        fun e => hf (issued_time_mem_times (by simp [hp])) (lastSampledTime_mem_times s) e
      rw [stepAt_of_issue hp, ← whenRunning_rename, ← runCommand_rename f g (s.setPending rest) c apart]
      exact stepAt_of_issue (by rw [State.rename_pending, hp]; rfl)
    | store a v =>
      rw [stepAt_of_store hp, ← whenRunning_rename, ← hostStore_rename]
      exact stepAt_of_store (by rw [State.rename_pending, hp]; rfl)

/-- Settles O57: each operation and the decoder commute with the renaming, so the step on the oldest action does. -/
theorem stepReadsOnlyEqualityOfTimes : Obligations.StepReadsOnlyEqualityOfTimes :=
  fun _ _ _ _ _ _ f g s hf => stepAt_rename f g s hf

end Sys2Proof.Machine
end

section
/-! ## The machine at tags behind the host's interface (log 6) -/

namespace Sys2Proof.Machine

theorem exec_eq_execAt (i : Instr) (s : State) : exec i s = execAt i s := by
  cases i <;> rfl

theorem step_eq_stepAt (s : State) : step s = stepAt s := by
  rw [step, stepAt, show exec = execAt from funext fun i => funext (exec_eq_execAt i)]

/-- One more step at the front of a run of the machine behind the interface. -/
theorem run_succ (k : Nat) (s : State) :
    run (k + 1) s =
      match step s with
      | .next t => run k t
      | .fault r => .fault r
      | .refused r => .refused r := by
  cases h : step s <;> simp [run, Host.Core.run, core, h]

theorem run_eq_runAt (k : Nat) (s : State) : run k s = runAt k s := by
  induction k generalizing s with
  | zero => rfl
  | succ k ih =>
    rw [run_succ, runAt_succ, step_eq_stepAt]
    cases stepAt s with
    | next t => exact ih t
    | fault r => rfl
    | refused r => rfl

/-- Settles O58: `exec` has the arms of `execAt`, and a step and a run are built from it in the same way. -/
theorem interfaceRunsTheInstanceAtTags : Obligations.InterfaceRunsTheInstanceAtTags :=
  ⟨exec_eq_execAt, step_eq_stepAt, run_eq_runAt⟩

end Sys2Proof.Machine
end

section
/-! ## Runs commute with renaming (00_scope.md R8, D9)

A state is, renamed, a state over the finite type of its own times. A run stays over that type, where a renaming that keeps
the times of the first state apart is injective. -/

namespace Sys2Proof.Machine

variable {τ σ ρ γ δ ε : Type}

theorem State.rename_rename (f : τ → σ) (g : γ → δ) (f' : σ → ρ) (g' : δ → ε) (s : State τ γ) :
    (s.rename f g).rename f' g' = s.rename (f' ∘ f) (g' ∘ g) := by
  have actions : HostAction.rename f' g' ∘ HostAction.rename f g = HostAction.rename (f' ∘ f) (g' ∘ g) := by
    funext a
    cases a <;> rfl
  simp only [State.rename, List.map_map, actions]
  rfl

theorem renameOutcome_renameOutcome (f : τ → σ) (g : γ → δ) (f' : σ → ρ) (g' : δ → ε) (x : Result τ γ) :
    renameOutcome f' g' (renameOutcome f g x) = renameOutcome (f' ∘ f) (g' ∘ g) x := by
  cases x with
  | next s => exact congrArg Host.Outcome.next (s.rename_rename f g f' g')
  | fault r => rfl
  | refused r => rfl

/-- A renaming that keeps every time of a state, and every cycle count, keeps the state. -/
theorem State.rename_eq_self {f : τ → τ} {s : State τ γ} (h : ∀ t ∈ s.times, f t = t) : s.rename f id = s := by
  have pending : s.pending.map (HostAction.rename f id) = s.pending := by
    refine (List.map_congr_left fun a ha => ?_).trans s.pending.map_id
    cases a with
    | issue c => simp [HostAction.rename, SideOperands.rename, h _ (issued_time_mem_times ha)]
    | store a v => rfl
  simp only [State.rename, Config.rename, pending, h _ (lastSampledTime_mem_times s), h _ (lastTimeReset_mem_times s)]

/-- A state over the type of its own times. -/
def State.overOwnTimes [DecidableEq τ] (s : State τ γ) : State { t // t ∈ s.times } γ :=
  s.rename (fun t => if h : t ∈ s.times then ⟨t, h⟩ else ⟨s.lastSampledTime, lastSampledTime_mem_times s⟩) id

theorem State.overOwnTimes_rename [DecidableEq τ] (s : State τ γ) : s.overOwnTimes.rename Subtype.val id = s := by
  rw [overOwnTimes, State.rename_rename]
  exact State.rename_eq_self fun t ht => by simp [ht]

section
variable [DecidableEq τ] [DecidableEq σ]

theorem runAt_rename_of_injective {f : τ → σ} (hf : f.Injective) (g : γ → δ) (k : Nat) (s : State τ γ) :
    runAt k (s.rename f g) = renameOutcome f g (runAt k s) := by
  induction k generalizing s with
  | zero => rfl
  | succ k ih =>
    rw [runAt_succ, runAt_succ, stepAt_rename f g s hf.injOn]
    cases stepAt s with
    | next t => exact ih t
    | fault r => rfl
    | refused r => rfl

/-- A run commutes with every renaming that keeps the times of its first state apart. -/
theorem runAt_rename (f : τ → σ) (g : γ → δ) (k : Nat) (s : State τ γ) (hf : Set.InjOn f { t | t ∈ s.times }) :
    runAt k (s.rename f g) = renameOutcome f g (runAt k s) := by
  have own : s.overOwnTimes.rename (f ∘ Subtype.val) g = s.rename f g := by
    rw [← congrArg (State.rename f g) s.overOwnTimes_rename, State.rename_rename, Function.comp_id]
  calc
    runAt k (s.rename f g) = runAt k (s.overOwnTimes.rename (f ∘ Subtype.val) g) := by rw [own]
    _ = renameOutcome (f ∘ Subtype.val) g (runAt k s.overOwnTimes) := runAt_rename_of_injective hf.injective g k _
    _ = renameOutcome f g (renameOutcome Subtype.val id (runAt k s.overOwnTimes)) :=
      (renameOutcome_renameOutcome ..).symm
    _ = renameOutcome f g (runAt k (s.overOwnTimes.rename Subtype.val id)) := by
      rw [runAt_rename_of_injective Subtype.val_injective]
    _ = renameOutcome f g (runAt k s) := by rw [State.overOwnTimes_rename]

end

/-- Tags keep the times of any list apart. -/
theorem exists_tags_injOn (l : List τ) : ∃ f : τ → Time, Set.InjOn f { t | t ∈ l } := by
  obtain ⟨n, hn⟩ := Set.countable_iff_exists_injOn.1 (List.finite_toSet l).countable
  exact ⟨fun t => ⟨n t⟩, fun a ha b hb e => hn ha hb (congrArg Time.tag e)⟩

/-- Settles O59: tags that keep the state's times apart rename the whole run. -/
theorem interfaceFollowsEveryTimeType : Obligations.InterfaceFollowsEveryTimeType := by
  intro τ γ _ s k
  obtain ⟨f, hf⟩ := exists_tags_injOn s.times
  exact ⟨f, fun _ => ⟨0⟩, hf, by rw [run_eq_runAt, runAt_rename f _ k s hf]⟩

end Sys2Proof.Machine
end

section
/-! ## The scheduler over any time type, simulated by the machine at tags (R8, D9; R140) -/

namespace Sys2Proof.Machine

variable {τ γ : Type}

/-- The simulation relation: a running block holds the abstract scheduler and the reset time under the names `f`. -/
structure TracksScheduler (f : τ → Time) (r : τ) (n : Scheduler τ) (s : State) : Prop where
  running : s.Running
  scheduler : s.scheduler = n.map f
  lastTimeReset : s.config.lastTimeReset = f r

theorem ClockCall.decode_encode_instr (f : τ → Time) (g : γ → Cycles) (call : ClockCall τ γ) :
    decode (encode (call.instr f g)) = .instr (call.instr f g) := by
  cases call with
  | genint t c | reset =>
    simp [ClockCall.instr, encode, encodeBeside, decode_fieldsWord, plainOperation, Operation.select]

variable {f : τ → Time} {r : τ} {n : Scheduler τ} {s : State}

theorem TracksScheduler.setPending (h : TracksScheduler f r n s) (rest : List HostAction) :
    TracksScheduler f r n (s.setPending rest) := ⟨h.running, h.scheduler, h.lastTimeReset⟩

/-- Names that keep the times of the calls apart keep the first call's time and the last sampled one apart. -/
theorem first_call_apart {call : ClockCall τ γ} {calls : List (ClockCall τ γ)}
    (hf : Set.InjOn f { t | t ∈ clockTimes r n (call :: calls) }) (t : τ) (ht : call.time = some t)
    (e : f t = f n.lastSampledTime) : t = n.lastSampledTime :=
  hf (by simp [clockTimes, ht]) (by simp [clockTimes]) e

variable [DecidableEq τ]

/-- A call's operation keeps the relation and returns the call's code. -/
theorem TracksScheduler.execAt_call (h : TracksScheduler f r n s) (g : γ → Cycles) (call : ClockCall τ γ)
    (apart : ∀ t, call.time = some t → f t = f n.lastSampledTime → t = n.lastSampledTime) :
    ∃ u, execAt (call.instr f g) s = .next u ∧ TracksScheduler f r (call.apply r n).2 u ∧
      u.pending = s.pending ∧ u.reply = (call.apply r n).1.map Reply.interrupt := by
  cases call with
  | genint t c =>
    have sample := Scheduler.sample_map f n t c (g c) (apart t rfl)
    refine ⟨_, whenRunning_of_running h.running _, ⟨h.running, ?_, h.lastTimeReset⟩, rfl, ?_⟩
    · change (s.scheduler.sample (f t) (g c)).2 = _
      rw [h.scheduler, sample]
      rfl
    · change some (Reply.interrupt (s.scheduler.sample (f t) (g c)).1) = _
      rw [h.scheduler, sample]
      rfl
  | reset =>
    refine ⟨_, whenRunning_of_running h.running _, ⟨⟨rfl, rfl⟩, ?_, h.lastTimeReset⟩, rfl, rfl⟩
    exact congrArg Scheduler.initial h.lastTimeReset

/-- A step on a call's command keeps the relation, takes the command and returns the call's code. -/
theorem TracksScheduler.stepAt_call (h : TracksScheduler f r n s) (g : γ → Cycles) (call : ClockCall τ γ)
    (apart : ∀ t, call.time = some t → f t = f n.lastSampledTime → t = n.lastSampledTime) {rest : List HostAction}
    (hp : s.pending = .issue (encode (call.instr f g)) :: rest) :
    ∃ u, stepAt s = .next u ∧ TracksScheduler f r (call.apply r n).2 u ∧
      u.pending = rest ∧ u.reply = (call.apply r n).1.map Reply.interrupt := by
  obtain ⟨u, hu, rel, pending, reply⟩ := (h.setPending rest).execAt_call g call apart
  refine ⟨u, ?_, rel, pending, reply⟩
  rw [stepAt_of_issue hp, whenRunning_of_running h.running, runCommand, call.decode_encode_instr f g]
  exact hu

/-- The times a list of calls can meet after its first call are among those before it. -/
theorem clockTimes_tail_subset (r : τ) (n : Scheduler τ) (call : ClockCall τ γ) (calls : List (ClockCall τ γ)) :
    clockTimes r (call.apply r n).2 calls ⊆ clockTimes r n (call :: calls) := by
  have last : (call.apply r n).2.lastSampledTime ∈ clockTimes r n (call :: calls) := by
    cases call with
    | genint t c =>
      by_cases ht : t = n.lastSampledTime
      · simp [clockTimes, ClockCall.apply, Scheduler.sample_of_eq ht]
      · simp [clockTimes, ClockCall.apply, Scheduler.sample_of_ne ht, ClockCall.time]
    | reset => exact List.mem_cons_self
  have later : calls.filterMap ClockCall.time ⊆ clockTimes r n (call :: calls) := fun u hu =>
    List.mem_cons_of_mem _ (List.mem_cons_of_mem _ (List.filterMap_subset _ (List.subset_cons_self call calls) hu))
  exact List.cons_subset.2 ⟨List.mem_cons_self, List.cons_subset.2 ⟨last, later⟩⟩

/-- A run over a list of calls keeps the relation and ends with the last call's code. -/
theorem TracksScheduler.runAt_calls (g : γ → Cycles) (last : ClockCall τ γ) (calls : List (ClockCall τ γ))
    (h : TracksScheduler f r n s) (hf : Set.InjOn f { t | t ∈ clockTimes r n (calls ++ [last]) })
    (hp : s.pending = script ((calls ++ [last]).map (·.instr f g))) :
    ∃ u, runAt (calls.length + 1) s = .next u ∧ TracksScheduler f r (n.after r (calls ++ [last])) u ∧
      u.reply = (last.apply r (n.after r calls)).1.map Reply.interrupt := by
  induction calls generalizing n s with
  | nil =>
    obtain ⟨u, hu, rel, -, reply⟩ := h.stepAt_call g last (first_call_apart hf) hp
    exact ⟨u, by rw [List.length_nil, runAt_succ, hu]; rfl, rel, reply⟩
  | cons call calls ih =>
    obtain ⟨v, hv, rel, pending, -⟩ := h.stepAt_call g call (first_call_apart hf) hp
    rw [List.length_cons, runAt_succ, hv]
    exact ih rel (hf.mono (clockTimes_tail_subset r n call (calls ++ [last]))) pending

/-- Settles O56: tags keep the times of the calls apart, and every call keeps the simulation relation. -/
theorem schedulerTakesAnyTimeType : Obligations.SchedulerTakesAnyTimeType := by
  intro τ γ _ r n calls last
  refine ⟨exists_tags_injOn _, fun f g s hf running scheduler lastTimeReset hp => ?_⟩
  obtain ⟨u, hu, rel, reply⟩ := TracksScheduler.runAt_calls g last calls ⟨running, scheduler, lastTimeReset⟩ hf hp
  exact ⟨u, by rw [run_eq_runAt, hu], rel.scheduler, reply⟩

end Sys2Proof.Machine
end

section
/-! ## The dimension queries and RESET on a running block (10_state.md R29, R33, R36, R37; 43_blit.md R170, R171) -/

namespace Sys2Proof.Machine

/-- R29's invariant: both orientations output the same number of pixels. -/
theorem outputWidth_mul_outputHeight (o : Orientation) : outputWidth o * outputHeight o = 57344 := by
  cases o with
  | cocktail => rfl
  | upright => rfl

variable {s : State}

theorem exec_qwidth_of_running (h : s.Running) :
    exec .qwidth s = .next (s.setReply (some (.dimension (outputWidth s.orientation)))) :=
  whenRunning_of_running h _

theorem exec_qheight_of_running (h : s.Running) :
    exec .qheight s = .next (s.setReply (some (.dimension (outputHeight s.orientation)))) :=
  whenRunning_of_running h _

theorem exec_reset_of_running (h : s.Running) :
    exec .reset s =
      .next ((resetFields (Config.srReset s.draws) (Config.saReset s.draws) s).afterDraw.setReply none) :=
  whenRunning_of_running h _

/-- Settles O37: the queries return the width and the height of the orientation, and setting the depth leaves the orientation
and the marks. -/
theorem dimensionsDependOnOrientationOnly : Obligations.DimensionsDependOnOrientationOnly := by
  intro s running
  refine ⟨outputWidth s.orientation, outputHeight s.orientation, outputWidth_mul_outputHeight s.orientation,
    fun cocktail => ?_, fun upright => ?_, fun p => ?_⟩
  · rw [cocktail]
    exact ⟨rfl, rfl⟩
  · rw [upright]
    exact ⟨rfl, rfl⟩
  · have running' : (s.setPixelDepth p).Running := running
    exact ⟨exec_qwidth_of_running running', exec_qheight_of_running running'⟩

/-- Settles O47: the created block holds the defaults, and RESET writes the same ones over any running block. -/
theorem resetDefaultsOfTheSource : Obligations.ResetDefaultsOfTheSource :=
  ⟨⟨rfl, rfl, rfl⟩, fun _ running => ⟨_, exec_reset_of_running running, rfl, rfl, rfl⟩⟩

end Sys2Proof.Machine
end

section
/-! ## Every operation but BLIT commutes with exchanging host memory (20_memory.md R52) -/

namespace Sys2Proof.Machine

variable {τ γ : Type}

/-- An outcome with another host memory in its next state. -/
def withMem (mem : Memory) : Result τ γ → Result τ γ
  | .next t => .next (t.setMem mem)
  | .fault r => .fault r
  | .refused r => .refused r

theorem whenRunning_setMem (mem : Memory) (s : State τ γ) (k : Result τ γ) :
    whenRunning (s.setMem mem) (withMem mem k) = withMem mem (whenRunning s k) := by
  unfold whenRunning
  rw [State.setMem_fault, State.setMem_refused]
  cases s.fault with
  | some f => rfl
  | none => cases s.refused <;> rfl

theorem whenRunning_answer_setMem (mem : Memory) (s t : State τ γ) (v : Reply) :
    whenRunning (s.setMem mem) (answer v (t.setMem mem)) = withMem mem (whenRunning s (answer v t)) :=
  whenRunning_setMem mem s (answer v t)

theorem setPairs_setMem (mem : Memory) (o : List (String × Value)) (s : State τ γ) :
    setPairs o (s.setMem mem) = withMem mem (setPairs o s) := by
  unfold setPairs
  split_ifs <;> rfl

theorem execSetopt_setMem (mem : Memory) (o : Options) (s : State τ γ) :
    execSetopt o (s.setMem mem) = withMem mem (execSetopt o s) := by
  cases o with
  | parseFail => exact whenRunning_answer_setMem mem s s _
  | pairs o =>
    calc
      whenRunning (s.setMem mem) (setPairs o (s.setMem mem))
        = whenRunning (s.setMem mem) (withMem mem (setPairs o s)) := by rw [setPairs_setMem]
      _ = withMem mem (whenRunning s (setPairs o s)) := whenRunning_setMem mem s _

theorem execReset_setMem (mem : Memory) (s : State τ γ) : execReset (s.setMem mem) = withMem mem (execReset s) :=
  whenRunning_setMem mem s (finish (resetFields (Config.srReset s.draws) (Config.saReset s.draws) s).afterDraw)

theorem exec_setMem {i : Instr} (hi : ∀ d n stride a m, i ≠ .blit d n stride a m) (mem : Memory) (s : State) :
    exec i (s.setMem mem) = withMem mem (exec i s) := by
  cases i with
  | blit d n stride a m => exact absurd rfl (hi d n stride a m)
  | in0 | in1 | in2 | in3 | in4 | in5 | in6 | out6 v | qwidth | qheight => exact whenRunning_answer_setMem mem s s _
  | out2 v => exact whenRunning_answer_setMem mem s (s.setShiftAmount _) _
  | out3 v => exact whenRunning_answer_setMem mem s (s.setPort3Latch v) _
  | out4 v => exact whenRunning_answer_setMem mem s (s.setShiftRegister _) _
  | out5 v => exact whenRunning_answer_setMem mem s (s.setPort5Latch v) _
  | genint t c => exact whenRunning_answer_setMem mem s (s.setScheduler _) _
  | setopt o => exact execSetopt_setMem mem o s
  | reset => exact execReset_setMem mem s

theorem exec_setMem_next {i : Instr} (hi : ∀ d n stride a m, i ≠ .blit d n stride a m) {s t : State}
    (h : exec i s = .next t) (mem : Memory) : exec i (s.setMem mem) = .next (t.setMem mem) := by
  rw [exec_setMem hi, h]
  rfl

/-- An operation that commutes with every exchange of host memory commutes with putting the state's own memory in its
place, so it leaves that memory. -/
theorem exec_mem {i : Instr} (hi : ∀ d n stride a m, i ≠ .blit d n stride a m) {s t : State} (h : exec i s = .next t) :
    t.mem = s.mem := by
  have own : exec i s = .next (t.setMem s.mem) := exec_setMem_next hi h s.mem
  have same : t = t.setMem s.mem := Host.Outcome.next.inj (h.symm.trans own)
  calc
    t.mem = (t.setMem s.mem).mem := congrArg State.mem same
    _ = s.mem := rfl

end Sys2Proof.Machine
end

section
/-! ## When BLIT completes, and what it leaves (43_blit.md R160, R162) -/

namespace Sys2Proof.Machine

/-- The state a BLIT leaves when no precondition fails (R160). -/
def State.afterBlit (s : State) (depth : Depth) (d stride a : Nat) : State :=
  ((s.setMem (s.mem.writeRegion d (stride * outputHeight s.orientation) (regionByte s depth stride a))).afterDraw).setReply
    none

variable {s t : State} {d n stride a m : Nat} {depth : Depth}

theorem exec_blit_of_running (running : s.Running) (hd : s.pixelDepth = .bits depth) :
    exec (.blit d n stride a m) s =
      match blitViolation s.config.hostAddrBits d n stride a m (outputHeight s.orientation)
          (rowBytes s.orientation depth) with
      | some f => raise f s
      | none => .next (s.afterBlit depth d stride a) := by
  change execBlit d n stride a m s = _
  rw [execBlit, whenRunning_of_running running, hd]
  rfl

theorem exec_blit_of_buffersMeet (running : s.Running) (hd : s.pixelDepth = .bits depth)
    (buffers : BuffersMeet s.config.hostAddrBits d n stride a m (outputHeight s.orientation)
      (rowBytes s.orientation depth)) :
    exec (.blit d n stride a m) s = .next (s.afterBlit depth d stride a) := by
  rw [exec_blit_of_running running hd, blitViolation_eq_none_iff.2 buffers]

/-- A BLIT that answers a next state without a fault mark ran on buffers that meet the preconditions. -/
theorem exec_blit_completed (h : exec (.blit d n stride a m) s = .next t) (noFault : t.fault = none)
    (hd : s.pixelDepth = .bits depth) :
    s.Running ∧ BuffersMeet s.config.hostAddrBits d n stride a m (outputHeight s.orientation)
      (rowBytes s.orientation depth) ∧ t = s.afterBlit depth d stride a := by
  have running : s.Running := (whenRunning_next h).1
  rw [exec_blit_of_running running hd] at h
  cases hv : blitViolation s.config.hostAddrBits d n stride a m (outputHeight s.orientation)
      (rowBytes s.orientation depth) with
  | some f =>
    rw [hv] at h
    obtain rfl := raise_next_iff.1 h
    cases noFault
  | none =>
    rw [hv] at h
    exact ⟨running, blitViolation_eq_none_iff.1 hv, (Host.Outcome.next.inj h).symm⟩

end Sys2Proof.Machine
end

section
/-! ## BLIT's output depends on the source bytes alone (43_blit.md R164 to R168) -/

namespace Sys2Proof.Machine

section
variable {mem mem' : Memory} {a : Nat} (agree : ∀ o, o < 7168 → mem.read (a + o) = mem'.read (a + o))
include agree

theorem sourceByte_congr {r b : Nat} (hr : r < 224) (hb : b < 32) : sourceByte mem a r b = sourceByte mem' a r b := by
  have inside : 32 * r + b < 7168 := by omega
  simpa only [sourceByte, lineBytes, Nat.add_assoc] using agree _ inside

theorem pix_congr {r k : Nat} (hr : r < 224) (hk : k < 256) : pix mem a r k = pix mem' a r k := by
  rw [pix, pix, sourceByte_congr agree hr (by omega)]

theorem transposedByte_congr {c k : Nat} (hc : c < 28) (hk : k < 256) :
    transposedByte mem a c k = transposedByte mem' a c k := by
  refine List.foldl_ext _ _ _ fun out j hj => ?_
  have line : 8 * c + j < 224 := by have := List.mem_range.1 hj; omega
  rw [pix_congr agree line hk]

theorem outputByte_congr {o : Orientation} {depth : Depth} {y x : Nat} (hy : y < outputHeight o)
    (hx : x < rowBytes o depth) (fg : Byte) : outputByte o depth fg mem a y x = outputByte o depth fg mem' a y x := by
  have pixel : uprightPixel y < 256 := by
    unfold uprightPixel
    omega
  cases o with
  | cocktail =>
    cases depth with
    | one => exact sourceByte_congr agree hy hx
    | eight => exact congrArg (colourByte fg) (pix_congr agree hy hx)
  | upright =>
    cases depth with
    | one => exact transposedByte_congr agree hx pixel
    | eight => exact congrArg (colourByte fg) (pix_congr agree hx pixel)

end

/-- Settles O51: every other operation commutes with an exchange of host memory; a BLIT that does not fault leaves
`afterBlit`, whose output bytes depend on the source alone. -/
theorem onlyBlitTouchesHostMemory : Obligations.OnlyBlitTouchesHostMemory := by
  refine ⟨fun s t i mem hi h => ⟨exec_mem hi h, exec_setMem_next hi h mem⟩, ?_⟩
  intro s t d n stride a m mem depth h noFault hd agree
  obtain ⟨running, buffers, rfl⟩ := exec_blit_completed h noFault hd
  refine ⟨rfl, fun x outside => blit_read_outside outside,
    (s.setMem mem).afterBlit depth d stride a, exec_blit_of_buffersMeet running hd buffers, fun y x hy hx => ?_⟩
  calc
    ((s.setMem mem).afterBlit depth d stride a).mem.read (d + y * stride + x)
      = outputByte s.orientation depth s.foregroundColour mem a y x :=
        blit_read_row (s := s.setMem mem) buffers.strideFits hy hx
    _ = outputByte s.orientation depth s.foregroundColour s.mem a y x := outputByte_congr agree hy hx _
    _ = (s.afterBlit depth d stride a).mem.read (d + y * stride + x) :=
        (blit_read_row buffers.strideFits hy hx).symm

end Sys2Proof.Machine
end

section
/-! ## Port reads (40_port_read.md) -/

namespace Sys2Proof

/-- The word 0x01pp0000 is the read of port p (30_encoding.md R74, R76). -/
theorem decode_readWord {p : Nat} (hp : p ≤ 255) (o : SideOperands) :
    decode ⟨BitVec.ofNat 32 (0x01000000 + p * 0x10000), o⟩ = Operation.select (.input (BitVec.ofNat 8 p)) := by
  have word : BitVec.ofNat 32 (0x01000000 + p * 0x10000) = fieldsWord 1 (BitVec.ofNat 8 p) 0 :=
    ofNat_eq_fieldsWord (c := 1) (v := 0) (by omega) (by omega) (by omega) (by omega)
  rw [word, decode_fieldsWord]
  rfl

/-- The reads of the port map end at port 6 (20_memory.md R51). -/
theorem portRead_eq_none {τ γ : Type} {p : Byte} (hp : 7 ≤ p.toNat) : (portRead p : Option (Instr τ γ)) = none := by
  unfold portRead
  split
  case h_8 => rfl
  all_goals omega

theorem decode_readWord_of_invalid {p : Nat} (low : 7 ≤ p) (high : p ≤ 255) (o : SideOperands) :
    decode ⟨BitVec.ofNat 32 (0x01000000 + p * 0x10000), o⟩ = .badPort (BitVec.ofNat 8 p) := by
  have port : (BitVec.ofNat 8 p).toNat = p := Nat.mod_eq_of_lt (by omega)
  rw [decode_readWord high, Operation.select, portRead_eq_none (by rw [port]; exact low)]

end Sys2Proof

namespace Sys2Proof.Machine

theorem step_of_issue {s : State} {c : Command} {rest : List HostAction} (running : s.Running)
    (hp : s.pending = .issue c :: rest) : step s = runCommand exec c (s.setPending rest) := by
  rw [step, stepBy, whenRunning_of_running running, hp]

/-- An IN or OUT of a port that does not accept it leaves the fault state of R240 and takes its command. -/
theorem step_of_badPort {s : State} {c : Command} {rest : List HostAction} {p : Byte} (running : s.Running)
    (hp : s.pending = .issue c :: rest) (hc : decode c = .badPort p) :
    step s = raise (.badPort p) (s.setPending rest) := by
  rw [step_of_issue running hp, runCommand, hc]

/-- Settles O11: the word decodes to a read of port p, which the port map does not hold. -/
theorem readOfInvalidPortFaults : Obligations.ReadOfInvalidPortFaults :=
  fun _ _ o _ running low high hp => step_of_badPort running hp (decode_readWord_of_invalid low high o)

theorem readPort_of_running {s : State} (running : s.Running) (v : Byte) :
    readPort v s = .next (s.setReply (some (.byte v))) :=
  whenRunning_of_running running _

theorem shiftWindow_toNat (sr : BitVec 16) (sa : BitVec 3) :
    (shiftWindow sr sa).toNat = sr.toNat / 2 ^ (8 - sa.toNat) % 256 := by
  rw [shiftWindow, BitVec.toNat_setWidth, BitVec.toNat_ushiftRight, Nat.shiftRight_eq_div_pow]

/-- R103's two spellings of the window: a shift right by `n - k` is a shift left by `k` and then right by `n`. -/
theorem div_two_pow_sub {k n : Nat} (hk : k ≤ n) (x : Nat) : x / 2 ^ (n - k) = x * 2 ^ k / 2 ^ n :=
  calc
    x / 2 ^ (n - k) = x * 2 ^ k / (2 ^ (n - k) * 2 ^ k) := (Nat.mul_div_mul_right _ _ (Nat.two_pow_pos k)).symm
    _ = x * 2 ^ k / 2 ^ n := by rw [pow_sub_mul_pow 2 hk]

/-- Settles O10: IN 3 answers the window, and the amount, below 8, makes its two spellings one number. -/
theorem readPort3ReturnsShiftWindow : Obligations.ReadPort3ReturnsShiftWindow := by
  refine ⟨decode_readWord (p := 3) (by omega), fun s running =>
    ⟨shiftWindow s.shiftRegister s.shiftAmount, readPort_of_running running _, shiftWindow_toNat _ _, ?_⟩⟩
  have amount : s.shiftAmount.toNat ≤ 8 := by have := s.shiftAmount.isLt; omega
  rw [shiftWindow_toNat, div_two_pow_sub amount]

/-- Settles O8: the word is the read of port 0, whose byte is a constant. -/
theorem readPort0ReturnsIdleInput : Obligations.ReadPort0ReturnsIdleInput :=
  ⟨decode_readWord (p := 0) (by omega), fun _ running => readPort_of_running running port0Value⟩

/-- Settles O9: each word is the read of its port, and the five meanings are one read of a constant. -/
theorem otherPortsReadZero : Obligations.OtherPortsReadZero := by
  constructor
  · intro o
    exact ⟨decode_readWord (p := 1) (by omega) o, decode_readWord (p := 2) (by omega) o,
      decode_readWord (p := 4) (by omega) o, decode_readWord (p := 5) (by omega) o,
      decode_readWord (p := 6) (by omega) o⟩
  · intro s running i hi
    have meaning : exec i s = readPort otherPortValue s := by
      simp only [List.mem_cons, List.not_mem_nil, or_false] at hi
      obtain rfl | rfl | rfl | rfl | rfl := hi <;> rfl
    exact meaning.trans (readPort_of_running running otherPortValue)

end Sys2Proof.Machine
end

section
/-! ## Port writes (41_port_write.md) -/

namespace Sys2Proof

/-- The word 0x02pp00vv is the write of byte v to port p (30_encoding.md R74, R76). -/
theorem decode_writeWord {p : Nat} (hp : p ≤ 255) (v : Byte) (o : SideOperands) :
    decode ⟨BitVec.ofNat 32 (0x02000000 + p * 0x10000 + v.toNat), o⟩ =
      Operation.select (.output (BitVec.ofNat 8 p) v) := by
  have word : BitVec.ofNat 32 (0x02000000 + p * 0x10000 + v.toNat) = fieldsWord 2 (BitVec.ofNat 8 p) v := by
    have fields := ofNat_eq_fieldsWord (c := 2) (p := p) (by omega) (by omega) v.isLt rfl
    rwa [BitVec.ofNat_toNat, BitVec.setWidth_eq] at fields
  rw [word, decode_fieldsWord]
  rfl

/-- The writes of the port map are ports 2 to 6 (20_memory.md R51). -/
theorem portWrite_eq_none {τ γ : Type} {p : Byte} (hp : p.toNat ≤ 1 ∨ 7 ≤ p.toNat) (v : Byte) :
    (portWrite p v : Option (Instr τ γ)) = none := by
  unfold portWrite
  split
  case h_6 => rfl
  all_goals omega

theorem decode_writeWord_of_invalid {p : Nat} (invalid : p ≤ 1 ∨ 7 ≤ p) (high : p ≤ 255) (v : Byte)
    (o : SideOperands) :
    decode ⟨BitVec.ofNat 32 (0x02000000 + p * 0x10000 + v.toNat), o⟩ = .badPort (BitVec.ofNat 8 p) := by
  have port : (BitVec.ofNat 8 p).toNat = p := Nat.mod_eq_of_lt (by omega)
  rw [decode_writeWord high, Operation.select, portWrite_eq_none (by rwa [port])]

end Sys2Proof

namespace Sys2Proof.Machine

/-- Settles O17: the word decodes to a write of port p, which lies above the ports the map writes. -/
theorem writeOfInvalidPortFaults : Obligations.WriteOfInvalidPortFaults :=
  fun _ _ v o _ running low high hp =>
    step_of_badPort running hp (decode_writeWord_of_invalid (.inr low) high v o)

/-- Settles O18: ports 0 and 1 lie below the ports the map writes. -/
theorem writeOfReadOnlyPortFaults : Obligations.WriteOfReadOnlyPortFaults :=
  fun _ _ v o _ running low hp =>
    step_of_badPort running hp (decode_writeWord_of_invalid (.inl low) (by omega) v o)

theorem writePort_of_running {s : State} (running : s.Running) (mask : Byte) (t : State) :
    writePort mask s t = .next (t.setReply (some (.byte mask))) :=
  whenRunning_of_running running _

/-- A bit of `risingEdges` is 1 exactly at a 0 to 1 transition (R125). -/
theorem risingEdges_getLsbD (old new : Byte) {i : Nat} (hi : i < 8) :
    (risingEdges old new).getLsbD i = (new.getLsbD i && !old.getLsbD i) := by
  simp [risingEdges, hi]

theorem levelBits_getLsbD (i : Nat) : levelBits.getLsbD i = decide (i = 0) := by
  simp [levelBits, BitVec.getLsbD_one]

/-- Bit 0 of port 3's mask is level-sensitive and the others are edge-triggered (R123). -/
theorem port3Mask_getLsbD (old new : Byte) {i : Nat} (hi : i < 8) :
    (port3Mask old new).getLsbD i =
      if i = 0 then new.getLsbD i || old.getLsbD i else new.getLsbD i && !old.getLsbD i := by
  simp only [port3Mask, BitVec.getLsbD_or, BitVec.getLsbD_and, BitVec.getLsbD_not, levelBits_getLsbD,
    risingEdges_getLsbD old new hi]
  by_cases level : i = 0
  · simp [level]
  · simp [level, hi]

/-- Settles O13: the answered mask is `port3Mask`, level-sensitive in bit 0 and edge-triggered in bits 1 to 7. -/
theorem writePort3TriggersAudio : Obligations.WritePort3TriggersAudio := by
  refine ⟨decode_writeWord (p := 3) (by omega), fun s v running =>
    ⟨port3Mask s.port3Latch v, writePort_of_running running _ (s.setPort3Latch v), ?_, fun i low high => ?_⟩⟩
  · rw [port3Mask_getLsbD _ _ (by omega), if_pos rfl]
  · rw [port3Mask_getLsbD _ _ (by omega), if_neg (by omega)]

/-- Settles O15: the answered mask is the rising edges against latch 5, in every bit. -/
theorem writePort5TriggersAudio : Obligations.WritePort5TriggersAudio :=
  ⟨decode_writeWord (p := 5) (by omega), fun s v running =>
    ⟨risingEdges s.port5Latch v, writePort_of_running running _ (s.setPort5Latch v),
      fun _ high => risingEdges_getLsbD _ _ (by omega)⟩⟩

end Sys2Proof.Machine
end

section
/-! ## GENINT on a running block (42_interrupt.md R140, R141) -/

namespace Sys2Proof

/-- The word 0x03000000 is class 3 with its port and data fields 0 (30_encoding.md R72, R74). -/
theorem decode_genintWord (o : SideOperands) : decode ⟨0x03000000, o⟩ = .instr (.genint o.time o.cycles) := by
  have word : (0x03000000 : Word) = fieldsWord 3 0 0 :=
    ofNat_eq_fieldsWord (c := 3) (p := 0) (v := 0) (by omega) (by omega) (by omega) rfl
  rw [word, decode_fieldsWord]
  rfl

end Sys2Proof

namespace Sys2Proof.Machine

variable {s : State} {t : Time}

theorem exec_genint_of_running (running : s.Running) (t : Time) (c : Cycles) :
    exec (.genint t c) s =
      .next ((s.setScheduler (s.scheduler.sample t c).2).setReply
        (some (.interrupt (s.scheduler.sample t c).1))) :=
  whenRunning_of_running running _

theorem exec_genint_of_sameTime (running : s.Running) (same : t = s.lastSampledTime) (c : Cycles) :
    exec (.genint t c) s = .next (s.setReply (some (.interrupt .none))) := by
  rw [exec_genint_of_running running, Scheduler.sample_of_eq same, State.setScheduler_self]

theorem exec_genint_of_changedTime (running : s.Running) (changed : t ≠ s.lastSampledTime) (c : Cycles) :
    exec (.genint t c) s =
      .next ((s.setScheduler ⟨s.nextInterrupt.flip, t⟩).setReply (some (.interrupt s.nextInterrupt.code))) := by
  rw [exec_genint_of_running running, Scheduler.sample_of_ne changed, State.scheduler_nextInterrupt]

/-- Settles O22: the scheduler's sample is silent at the last time and fires at any other, from either of its states. -/
theorem genintFiresOnChangedTime : Obligations.GenintFiresOnChangedTime := by
  refine ⟨decode_genintWord, fun s t c running =>
    ⟨fun same => exec_genint_of_sameTime running same c, fun changed one => ?_, fun changed two => ?_⟩⟩
  · rw [exec_genint_of_changedTime running changed, one]
    rfl
  · rw [exec_genint_of_changedTime running changed, two]
    rfl

/-- Settles O23: GENINT completes with the code of the scheduler's sample, and each code has its number. -/
theorem genintReturnsOneOfThreeCodes : Obligations.GenintReturnsOneOfThreeCodes := by
  intro s t c running
  refine ⟨_, _, exec_genint_of_running running t c, rfl, ?_⟩
  cases (s.scheduler.sample t c).1 with
  | none => exact .inl ⟨rfl, rfl⟩
  | midScreen => exact .inr (.inl ⟨rfl, rfl⟩)
  | vblank => exact .inr (.inr ⟨rfl, rfl⟩)

end Sys2Proof.Machine
end

section
/-! ## The dimension queries' words and replies (43_blit.md R170, R171) -/

namespace Sys2Proof

/-- A word of class 3 or more with its other fields 0 is the class's plain operation (30_encoding.md R74, R76). -/
theorem decode_plainWord {c : Nat} (low : 3 ≤ c) (high : c < 256) {o : SideOperands}
    {op : Operation Time Cycles} (plain : plainOperation (BitVec.ofNat 8 c) o = some op) :
    decode ⟨BitVec.ofNat 32 (c * 0x1000000), o⟩ = op.select := by
  have word : BitVec.ofNat 32 (c * 0x1000000) = fieldsWord (BitVec.ofNat 8 c) 0 0 :=
    ofNat_eq_fieldsWord (p := 0) (v := 0) high (by omega) (by omega) (by omega)
  have notRead : BitVec.ofNat 8 c ≠ 1 := by bv_omega
  have notWrite : BitVec.ofNat 8 c ≠ 2 := by bv_omega
  rw [word, decode_fieldsWord, if_neg notRead, if_neg notWrite, if_neg (by decide), plain]

end Sys2Proof

namespace Sys2Proof.Machine

/-- Settles O35: the word is class 6, and the reply is the orientation's width. -/
theorem qwidthReturnsPixelWidth : Obligations.QwidthReturnsPixelWidth := by
  refine ⟨fun o => decode_plainWord (c := 6) (by omega) (by omega) rfl, fun s running =>
    ⟨fun cocktail => ?_, fun upright => ?_⟩⟩
  · rw [exec_qwidth_of_running running, congrArg outputWidth cocktail]
    rfl
  · rw [exec_qwidth_of_running running, congrArg outputWidth upright]
    rfl

/-- Settles O36: the word is class 7, the reply is the orientation's height, and the product is R29's. -/
theorem qheightReturnsPixelHeight : Obligations.QheightReturnsPixelHeight := by
  refine ⟨fun o => decode_plainWord (c := 7) (by omega) (by omega) rfl, fun s running =>
    ⟨fun cocktail => ?_, fun upright => ?_, outputWidth s.orientation, outputHeight s.orientation,
      exec_qwidth_of_running running, exec_qheight_of_running running, outputWidth_mul_outputHeight s.orientation⟩⟩
  · rw [exec_qheight_of_running running, congrArg outputHeight cocktail]
    rfl
  · rw [exec_qheight_of_running running, congrArg outputHeight upright]
    rfl

end Sys2Proof.Machine
end

section
/-! ## The cocktail 1-bit blit (43_blit.md R164) -/

namespace Sys2Proof.Machine

variable {s : State} {d stride a : Nat}

/-- The 1-bit modes copy source bits and read no colour (R164, R167). -/
theorem outputByte_one_colour (o : Orientation) (fg fg' : Byte) (mem : Memory) (a y x : Nat) :
    outputByte o .one fg mem a y x = outputByte o .one fg' mem a y x := by
  cases o with
  | cocktail => rfl
  | upright => rfl

theorem regionByte_one_setForegroundColour (s : State) (stride a : Nat) (fg : Byte) :
    regionByte (s.setForegroundColour fg) .one stride a = regionByte s .one stride a := by
  funext o
  exact if_congr Iff.rfl (outputByte_one_colour ..) rfl

theorem afterBlit_one_setForegroundColour (s : State) (d stride a : Nat) (fg : Byte) :
    (s.setForegroundColour fg).afterBlit .one d stride a = (s.afterBlit .one d stride a).setForegroundColour fg := by
  rw [State.afterBlit, regionByte_one_setForegroundColour]
  rfl

/-- Byte `x` of output row `r` is byte `x` of source line `r` (R164). -/
theorem afterBlit_cocktailOne_read (cocktail : s.orientation = .cocktail) (strideFits : 32 ≤ stride) {r x : Nat}
    (hr : r < 224) (hx : x < 32) :
    (s.afterBlit .one d stride a).mem.read (d + r * stride + x) = s.mem.read (a + 32 * r + x) := by
  have height : outputHeight s.orientation = 224 := by rw [cocktail]; rfl
  have width : rowBytes s.orientation .one = 32 := by rw [cocktail]; rfl
  calc
    (s.afterBlit .one d stride a).mem.read (d + r * stride + x)
      = outputByte s.orientation .one s.foregroundColour s.mem a r x :=
        blit_read_row (by rwa [width]) (by rwa [height]) (by rwa [width])
    _ = s.mem.read (a + 32 * r + x) := by rw [cocktail]; rfl

/-- At the natural row width the rows join into one copy of the source (R164). -/
theorem afterBlit_cocktailOne_read_packed (cocktail : s.orientation = .cocktail) {o : Nat} (ho : o < 7168) :
    (s.afterBlit .one d 32 a).mem.read (d + o) = s.mem.read (a + o) := by
  have row := afterBlit_cocktailOne_read (d := d) (a := a) (r := o / 32) (x := o % 32) cocktail le_rfl (by omega)
    (by omega)
  rwa [show d + o / 32 * 32 + o % 32 = d + o by omega, show a + 32 * (o / 32) + o % 32 = a + o by omega] at row

/-- Settles O28: the blit leaves `afterBlit`, whose rows are the source's lines and which commutes with setting the colour. -/
theorem cocktailOneBitCopiesRows : Obligations.CocktailOneBitCopiesRows := by
  intro s d n stride a m running cocktail depth buffers
  have completes (fg : Byte) : exec (.blit d n stride a m) (s.setForegroundColour fg) =
      .next ((s.setForegroundColour fg).afterBlit .one d stride a) :=
    exec_blit_of_buffersMeet running depth (by rw [State.setForegroundColour_orientation, cocktail]; exact buffers)
  refine ⟨s.afterBlit .one d stride a, completes s.foregroundColour,
    fun r x hr hx => afterBlit_cocktailOne_read cocktail buffers.strideFits hr hx, ?_, fun fg => ?_⟩
  · rintro rfl o ho
    exact afterBlit_cocktailOne_read_packed cocktail ho
  · exact (completes fg).trans (congrArg Host.Outcome.next (afterBlit_one_setForegroundColour s d stride a fg))

end Sys2Proof.Machine
end

section
/-! ## The operations that never fault (60_exceptions.md R243) -/

namespace Sys2Proof.Machine

variable {τ γ : Type}

/-- SETOPT on the pairs of an object answers a next state whether it refuses them or applies them, and neither writes the
fault mark (44_options.md R200; 60_exceptions.md R247). -/
theorem setPairs_next_keeps_fault (o : List (String × Value)) (s : State τ γ) :
    ∃ t, setPairs o s = .next t ∧ t.fault = s.fault := by
  unfold setPairs
  split_ifs with duplicate ambiguous
  · exact ⟨_, refuse_next_iff.2 rfl, rfl⟩
  · exact ⟨_, refuse_next_iff.2 rfl, rfl⟩
  · exact ⟨_, answer_next_iff.2 rfl, rfl⟩

theorem exec_setopt_next_keeps_fault {s : State} (running : s.Running) (o : Options) :
    ∃ t, exec (.setopt o) s = .next t ∧ t.fault = s.fault := by
  cases o with
  | parseFail => exact ⟨_, whenRunning_of_running running _, rfl⟩
  | pairs o =>
    obtain ⟨t, answers, fault⟩ := setPairs_next_keeps_fault o s
    exact ⟨t, (whenRunning_of_running running _).trans answers, fault⟩

/-- Settles O50: on a running block a port access, GENINT and a query answer a state that differs in other fields only,
SETOPT keeps the fault mark even where it refuses, and RESET clears it. -/
theorem onlyBlitCanFault : Obligations.OnlyBlitCanFault := by
  intro s i running notBlit
  have noFault : s.fault = none := running.1
  cases i with
  | blit d n stride a m => exact absurd rfl (notBlit d n stride a m)
  | in0 | in1 | in2 | in3 | in4 | in5 | in6 => exact ⟨_, readPort_of_running running _, noFault⟩
  | out2 v | out3 v | out4 v | out5 v | out6 v => exact ⟨_, writePort_of_running running _ _, noFault⟩
  | genint t c => exact ⟨_, exec_genint_of_running running t c, noFault⟩
  | setopt o =>
    obtain ⟨t, answers, fault⟩ := exec_setopt_next_keeps_fault running o
    exact ⟨t, answers, fault.trans noFault⟩
  | qwidth => exact ⟨_, exec_qwidth_of_running running, noFault⟩
  | qheight => exact ⟨_, exec_qheight_of_running running, noFault⟩
  | reset => exact ⟨_, exec_reset_of_running running, rfl⟩

end Sys2Proof.Machine
end

section
/-! ## Decoding and encoding are inverse (30_encoding.md R72 to R78) -/

namespace Sys2Proof

/-- The side operands an instruction does not use do not matter to its decoding (log 14). -/
theorem decode_encodeBeside (o : SideOperands) (i : Instr) : decode (encodeBeside o i) = .instr i := by
  cases i with
  | in0 | in1 | in2 | in3 | in4 | in5 | in6 => exact decode_fieldsWord ..
  | out2 v | out3 v | out4 v | out5 v | out6 v => exact decode_fieldsWord ..
  | genint t c => exact decode_fieldsWord ..
  | blit d n s a m => exact decode_fieldsWord ..
  | setopt x => exact decode_fieldsWord ..
  | qwidth | qheight | reset => exact decode_fieldsWord ..

/-- Settles O5: `encode` is `encodeBeside` with side operands of zeros. -/
theorem decodeInvertsEncode : Obligations.DecodeInvertsEncode :=
  decode_encodeBeside SideOperands.zero

/-- The one word that spells an operation (R74, R78). -/
def Operation.word {τ γ : Type} : Operation τ γ → Word
  | .input p => fieldsWord 1 p 0
  | .output p v => fieldsWord 2 p v
  | .genint _ _ => fieldsWord 3 0 0
  | .blit _ _ _ _ _ => fieldsWord 4 0 0
  | .setopt _ => fieldsWord 5 0 0
  | .qwidth => fieldsWord 6 0 0
  | .qheight => fieldsWord 7 0 0
  | .reset => fieldsWord 8 0 0

theorem plainOperation_word {cls : Byte} {o : SideOperands} {op : Operation} (h : plainOperation cls o = some op) :
    op.word = fieldsWord cls 0 0 := by
  unfold plainOperation at h
  split at h
  case h_7 => cases h
  all_goals
    next value =>
      obtain rfl := Option.some.inj h
      exact congrArg (fieldsWord · 0 0) (BitVec.eq_of_toNat_eq value.symm)

theorem decodeOperation_word {w : Word} {o : SideOperands} {op : Operation} (h : decodeOperation w o = some op) :
    op.word = w := by
  unfold decodeOperation at h
  split_ifs at h with reserved read readData write fields
  all_goals
    push Not at reserved
    rw [← fieldsWord_fields reserved]
  · push Not at readData
    obtain rfl := Option.some.inj h
    rw [read, readData]
    rfl
  · obtain rfl := Option.some.inj h
    rw [write]
    rfl
  · push Not at fields
    rw [plainOperation_word h, fields.1, fields.2]

theorem portRead_word {p : Byte} {i : Instr} (h : portRead p = some i) : (encode i).word = fieldsWord 1 p 0 := by
  unfold portRead at h
  split at h
  case h_8 => cases h
  all_goals
    next value =>
      obtain rfl := Option.some.inj h
      exact congrArg (fieldsWord 1 · 0) (BitVec.eq_of_toNat_eq value.symm)

theorem portWrite_word {p v : Byte} {i : Instr} (h : portWrite p v = some i) : (encode i).word = fieldsWord 2 p v := by
  unfold portWrite at h
  split at h
  case h_6 => cases h
  all_goals
    next value =>
      obtain rfl := Option.some.inj h
      exact congrArg (fieldsWord 2 · v) (BitVec.eq_of_toNat_eq value.symm)

/-- What selecting an operation can answer: an instruction of the same word, or a port it does not accept. -/
theorem Operation.select_cases (op : Operation) :
    (∃ i, op.select = .instr i ∧ (encode i).word = op.word) ∨
      (∃ p, op = .input p ∧ portRead p = (none : Option Instr) ∧ op.select = .badPort p) ∨
      ∃ p v, op = .output p v ∧ portWrite p v = (none : Option Instr) ∧ op.select = .badPort p := by
  cases op with
  | input p =>
    cases h : (portRead p : Option Instr) with
    | some i => exact .inl ⟨i, by rw [select, h], portRead_word h⟩
    | none => exact .inr (.inl ⟨p, rfl, h, by rw [select, h]⟩)
  | output p v =>
    cases h : (portWrite p v : Option Instr) with
    | some i => exact .inl ⟨i, by rw [select, h], portWrite_word h⟩
    | none => exact .inr (.inr ⟨p, v, rfl, h, by rw [select, h]⟩)
  | genint t c => exact .inl ⟨_, rfl, rfl⟩
  | blit d n s a m => exact .inl ⟨_, rfl, rfl⟩
  | setopt o => exact .inl ⟨_, rfl, rfl⟩
  | qwidth | qheight | reset => exact .inl ⟨_, rfl, rfl⟩

theorem decode_of_none {c : Command} (h : decodeOperation c.word c.side = none) : decode c = .badCmd c.word := by
  rw [decode, h]

theorem decode_of_some {c : Command} {op : Operation} (h : decodeOperation c.word c.side = some op) :
    decode c = op.select := by
  rw [decode, h]

/-- Settles O6: the word of the decoded operation is the command's, and selecting its instruction keeps the word. -/
theorem encodeRestoresDecodedWord : Obligations.EncodeRestoresDecodedWord := by
  intro c i h
  cases hop : decodeOperation c.word c.side with
  | none =>
    rw [decode_of_none hop] at h
    cases h
  | some op =>
    rw [decode_of_some hop] at h
    obtain ⟨j, hj, word⟩ | ⟨p, -, -, bad⟩ | ⟨p, v, -, -, bad⟩ := op.select_cases
    · obtain rfl := Decoded.instr.inj (h.symm.trans hj)
      exact word.trans (decodeOperation_word hop)
    · cases h.symm.trans bad
    · cases h.symm.trans bad

theorem plainOperation_eq_none_iff {cls : Byte} {o : SideOperands} :
    plainOperation cls o = none ↔ cls.toNat < 3 ∨ 9 ≤ cls.toNat := by
  unfold plainOperation
  split
  case h_7 h1 h2 h3 h4 h5 h6 =>
    simp only [imp_false] at h1 h2 h3 h4 h5 h6
    simp only [true_iff]
    omega
  all_goals simp only [reduceCtorEq, false_iff]; omega

/-- A word spells no operation exactly when one of R77's four bullets holds of it. -/
theorem decodeOperation_eq_none_iff {w : Word} {o : SideOperands} :
    decodeOperation w o = none ↔ Machine.illegalWord w = true := by
  simp only [Machine.illegalWord, Bool.or_eq_true, decide_eq_true_eq, decodeOperation]
  split_ifs
  all_goals
    simp only [plainOperation_eq_none_iff, true_iff, false_iff]
    bv_omega

theorem decode_eq_badCmd_iff {w u : Word} {o : SideOperands} :
    decode ⟨w, o⟩ = .badCmd u ↔ u = w ∧ Machine.illegalWord w = true := by
  rw [← decodeOperation_eq_none_iff (o := o)]
  cases hop : decodeOperation w o with
  | none =>
    rw [decode_of_none (c := ⟨w, o⟩) hop]
    simp [eq_comm]
  | some op =>
    rw [decode_of_some (c := ⟨w, o⟩) hop]
    obtain ⟨j, hj, -⟩ | ⟨p, -, -, bad⟩ | ⟨p, v, -, -, bad⟩ := op.select_cases
    · simp [hj]
    · simp [bad]
    · simp [bad]

/-- Settles O2: R77's four bullets, each field being its digits of the word's number. -/
theorem illegalWordsAreExactlyBadCommands : Obligations.IllegalWordsAreExactlyBadCommands := by
  intro w o
  have zero {b : Byte} : b = 0 ↔ b.toNat = 0 := BitVec.toNat_inj.symm
  have two : w.cls = 2 ↔ w.cls.toNat = 2 := BitVec.toNat_inj.symm
  rw [decode_eq_badCmd_iff]
  simp only [Machine.illegalWord, Bool.or_eq_true, decide_eq_true_eq, ne_eq, zero, two, Word.cls_toNat, Word.port_toNat,
    Word.rsv_toNat, Word.data_toNat, true_and, or_assoc]

/-- Every instruction's row stands in the opcode map (R75). -/
theorem Instr.row_mem_opcodeTable (i : Instr) : i.row ∈ opcodeTable := by
  cases i <;> simp [opcodeTable, tableSamples, Instr.row]

/-- The encoded word of an instruction spells its row (R75). -/
theorem encode_spells_row (i : Instr) : Laws.EncodesItsRow.Statement i := by
  open Laws.EncodesItsRow in
  cases i with
  | in0 => exact in0
  | in1 => exact in1
  | in2 => exact in2
  | in3 => exact in3
  | in4 => exact in4
  | in5 => exact in5
  | in6 => exact in6
  | out2 v => exact out2 v
  | out3 v => exact out3 v
  | out4 v => exact out4 v
  | out5 v => exact out5 v
  | out6 v => exact out6 v
  | genint t c => exact genint t c
  | blit d n s a m => exact blit d n s a m
  | setopt o => exact setopt o
  | qwidth => exact qwidth
  | qheight => exact qheight
  | reset => exact reset

/-- A word that spells a row of OUT is a write of the row's port: the mask leaves the data byte alone free. -/
theorem eq_fieldsWord_of_and_high {w : Word} {cls port : Byte} (h : w &&& 0xFFFFFF00#32 = fieldsWord cls port 0) :
    w = fieldsWord cls port w.data := by
  have field {n : Nat} (free : (0xFFFFFF00#32).extractLsb' n 8 = BitVec.allOnes 8) :
      w.extractLsb' n 8 = (fieldsWord cls port 0).extractLsb' n 8 := by
    rw [← h, BitVec.extractLsb'_and, free, BitVec.and_allOnes]
  have hcls : w.cls = cls := (field rfl).trans (fieldsWord_cls ..)
  have hport : w.port = port := (field rfl).trans (fieldsWord_port ..)
  have hrsv : w.rsv = 0 := (field rfl).trans (fieldsWord_rsv ..)
  exact Word.ext_fields (by simp [hcls]) (by simp [hport]) (by simp [hrsv]) (by simp)

/-- An instruction of the same row with the operands of a command. -/
def Instr.withOperandsOf (c : Command) : Instr → Instr
  | .out2 _ => .out2 c.word.data
  | .out3 _ => .out3 c.word.data
  | .out4 _ => .out4 c.word.data
  | .out5 _ => .out5 c.word.data
  | .out6 _ => .out6 c.word.data
  | .genint _ _ => .genint c.side.time c.side.cycles
  | .blit _ _ _ _ _ => .blit c.side.dstBase c.side.dstLength c.side.stride c.side.srcBase c.side.srcLength
  | .setopt _ => .setopt c.side.options
  | i => i

/-- A command whose word spells an instruction's row is the encoding of that instruction with the command's operands. -/
theorem encodeBeside_withOperandsOf (c : Command) (i : Instr) (h : c.word &&& i.row.mask = i.row.pattern) :
    encodeBeside c.side (i.withOperandsOf c) = c := by
  have own_word (full : i.row.mask = BitVec.allOnes 32) : (encode i).word = c.word := by
    have spells := beq_iff_eq.1 (encode_spells_row i)
    rw [full, BitVec.and_allOnes] at h spells
    exact spells.trans h.symm
  cases i with
  | out2 v | out3 v | out4 v | out5 v | out6 v =>
    exact congrArg (Command.mk · c.side) (eq_fieldsWord_of_and_high h).symm
  | in0 | in1 | in2 | in3 | in4 | in5 | in6 | qwidth | qheight | reset =>
    exact congrArg (Command.mk · c.side) (own_word rfl)
  | genint t k => exact congrArg (Command.mk · c.side) (own_word rfl)
  | blit d n s a m => exact congrArg (Command.mk · c.side) (own_word rfl)
  | setopt x => exact congrArg (Command.mk · c.side) (own_word rfl)

/-- Settles O4: a decoded instruction's word spells its row, and a word that spells a row decodes to an instruction. -/
theorem decoderAcceptsExactlyTheOpcodeMap : Obligations.DecoderAcceptsExactlyTheOpcodeMap := by
  intro c
  constructor
  · rintro ⟨i, h⟩
    have spells := encode_spells_row i
    rw [Laws.EncodesItsRow.Statement, TableRow.spells, encodeRestoresDecodedWord c i h] at spells
    exact ⟨i.row, i.row_mem_opcodeTable, beq_iff_eq.1 spells⟩
  · rintro ⟨r, hr, spells⟩
    obtain ⟨i, -, rfl⟩ := List.mem_map.1 hr
    refine ⟨i.withOperandsOf c, ?_⟩
    have decoded := decode_encodeBeside c.side (i.withOperandsOf c)
    rwa [encodeBeside_withOperandsOf c i spells] at decoded

/-- Settles O7: reads, writes and plain operations by their fields; 0x02030100 has its reserved field set. -/
theorem sampleWordsDecode : Obligations.SampleWordsDecode := by
  intro o
  have illegal : Machine.illegalWord 0x02030100 = true := by decide
  exact ⟨decode_readWord (p := 3) (by omega) o, decode_writeWord (p := 4) (by omega) 0x12 o,
    decode_writeWord (p := 6) (by omega) 0x5A o, decode_genintWord o,
    decode_plainWord (c := 4) (by omega) (by omega) rfl, decode_plainWord (c := 5) (by omega) (by omega) rfl,
    decode_plainWord (c := 6) (by omega) (by omega) rfl, decode_plainWord (c := 7) (by omega) (by omega) rfl,
    decode_plainWord (c := 8) (by omega) (by omega) rfl, decode_readWord_of_invalid (p := 255) (by omega) (by omega) o,
    decode_eq_badCmd_iff.2 ⟨rfl, illegal⟩⟩

end Sys2Proof
end

section
/-! ## What a step does on a running, a faulted and a refused block (60_exceptions.md R240, R247, R256) -/

namespace Sys2Proof.Machine

variable {s : State}

/-- Every operation runs under the guard. -/
theorem exec_guarded (i : Instr) (s : State) : ∃ k, exec i s = whenRunning s k := by
  cases i <;> exact ⟨_, rfl⟩

theorem running_of_exec_next {t : State} {i : Instr} (h : exec i s = .next t) : s.Running := by
  obtain ⟨k, guarded⟩ := exec_guarded i s
  exact (whenRunning_next (guarded.symm.trans h)).1

theorem step_of_fault {f : Fault} (h : s.fault = some f) : step s = .fault f :=
  whenRunning_of_fault h _

theorem step_of_refused (h : s.fault = none) (h' : s.refused = true) : step s = .refused .blockRefused :=
  whenRunning_of_refused h h' _

/-- Settles O48: the guard stops every operation and every step of a marked block. -/
theorem markedBlockTakesNoStep : Obligations.MarkedBlockTakesNoStep := by
  intro s i
  obtain ⟨k, guarded⟩ := exec_guarded i s
  rw [guarded]
  exact ⟨fun f h => ⟨whenRunning_of_fault h k, step_of_fault h⟩,
    fun h h' => ⟨whenRunning_of_refused h h' k, step_of_refused h h'⟩⟩

theorem step_of_instr {c : Command} {rest : List HostAction} {i : Instr} (running : s.Running)
    (hp : s.pending = .issue c :: rest) (hc : decode c = .instr i) : step s = exec i (s.setPending rest) := by
  rw [step_of_issue running hp, runCommand, hc]

/-- Settles O1: the step of an issued command, its decoding being an instruction. -/
theorem stepRunsDecodedInstruction : Obligations.StepRunsDecodedInstruction :=
  fun _ _ _ _ running hp hc => step_of_instr running hp hc

/-- Settles O3: the step of an issued command, its decoding being no operation. -/
theorem badCommandFaults : Obligations.BadCommandFaults := by
  intro s c rest running hp hc
  rw [step_of_issue running hp, runCommand, hc]
  rfl

theorem step_of_idle (running : s.Running) (hp : s.pending = []) : step s = .next s := by
  rw [step, stepBy, whenRunning_of_running running, hp]

theorem step_of_store {a : Nat} {v : Byte} {rest : List HostAction} (running : s.Running)
    (hp : s.pending = .store a v :: rest) : step s = hostStore a v (s.setPending rest) := by
  rw [step, stepBy, whenRunning_of_running running, hp]

/-- Settles O55: an idle step, and a store inside and outside the host's space. -/
theorem hostMovesBetweenOperations : Obligations.HostMovesBetweenOperations := by
  intro s running
  refine ⟨step_of_idle running, fun x v rest hp wf inside => ?_, fun x v rest hp outside => ?_⟩
  · rw [step_of_store running hp]
    exact ⟨_, if_pos inside, rfl, Memory.read_write wf x v⟩
  · rw [step_of_store running hp]
    exact if_neg (Nat.not_lt.2 outside)

end Sys2Proof.Machine
end

section
/-! ## Writes of ports 2, 4 and 6, and repeated writes (41_port_write.md) -/

namespace Sys2Proof.Machine

variable {s : State}

theorem shiftAmountOf_eq (v : Byte) : shiftAmountOf v = BitVec.ofNat 3 (v.toNat % 8) := by
  apply BitVec.eq_of_toNat_eq
  simp [shiftAmountOf]

theorem insertByte_toNat (sr : BitVec 16) (v : Byte) : (insertByte sr v).toNat = v.toNat * 256 + sr.toNat / 256 := by
  have low : sr.toNat / 256 < 2 ^ 8 := by have := sr.isLt; omega
  have high : v.toNat <<< 8 < 2 ^ 16 := by have := v.isLt; rw [Nat.shiftLeft_eq]; omega
  have wide : v.toNat < 2 ^ 16 := by have := v.isLt; omega
  calc
    (insertByte sr v).toNat = sr.toNat / 256 ||| v.toNat <<< 8 := by
      rw [insertByte, BitVec.toNat_or, BitVec.toNat_ushiftRight, BitVec.toNat_shiftLeft, BitVec.toNat_setWidth,
        Nat.mod_eq_of_lt wide, Nat.mod_eq_of_lt high, Nat.shiftRight_eq_div_pow]
    _ = v.toNat <<< 8 + sr.toNat / 256 := by rw [Nat.or_comm, Nat.shiftLeft_add_eq_or_of_lt low]
    _ = v.toNat * 256 + sr.toNat / 256 := by rw [Nat.shiftLeft_eq]

theorem append_toNat (hi lo : Byte) : (hi ++ lo).toNat = hi.toNat * 256 + lo.toNat := by
  rw [BitVec.toNat_append, ← Nat.shiftLeft_add_eq_or_of_lt lo.isLt, Nat.shiftLeft_eq]

/-- Two bytes inserted in turn are the whole register (R124). -/
theorem insertByte_insertByte (sr : BitVec 16) (lo hi : Byte) : insertByte (insertByte sr lo) hi = hi ++ lo := by
  apply BitVec.eq_of_toNat_eq
  have := sr.isLt
  have := lo.isLt
  rw [insertByte_toNat, insertByte_toNat, append_toNat]
  omega

theorem exec_out2_of_running (running : s.Running) (v : Byte) :
    exec (.out2 v) s = .next ((s.setShiftAmount (shiftAmountOf v)).setReply (some (.byte noTrigger))) :=
  writePort_of_running running ..

theorem exec_out3_of_running (running : s.Running) (v : Byte) :
    exec (.out3 v) s = .next ((s.setPort3Latch v).setReply (some (.byte (port3Mask s.port3Latch v)))) :=
  writePort_of_running running ..

theorem exec_out4_of_running (running : s.Running) (v : Byte) :
    exec (.out4 v) s = .next ((s.setShiftRegister (insertByte s.shiftRegister v)).setReply (some (.byte noTrigger))) :=
  writePort_of_running running ..

theorem exec_out5_of_running (running : s.Running) (v : Byte) :
    exec (.out5 v) s = .next ((s.setPort5Latch v).setReply (some (.byte (port5Mask s.port5Latch v)))) :=
  writePort_of_running running ..

theorem exec_out6_of_running (running : s.Running) (v : Byte) :
    exec (.out6 v) s = .next (s.setReply (some (.byte noTrigger))) :=
  writePort_of_running running ..

/-- Settles O12: the amount's three bits are the byte modulo 8. -/
theorem writePort2SetsShiftAmount : Obligations.WritePort2SetsShiftAmount := by
  intro s v running
  rw [exec_out2_of_running running, shiftAmountOf_eq]
  rfl

/-- Settles O14: the inserted word as a number. -/
theorem writePort4InsertsByte : Obligations.WritePort4InsertsByte := by
  intro s v running
  rw [exec_out4_of_running running, ← insertByte_toNat, BitVec.ofNat_toNat, BitVec.setWidth_eq]
  rfl

/-- Settles O16: the write answers the state itself with the mask of no trigger. -/
theorem writePort6IsNoOp : Obligations.WritePort6IsNoOp :=
  fun _ v running => exec_out6_of_running running v

theorem risingEdges_self (v : Byte) : risingEdges v v = 0 := BitVec.and_not_self v

theorem risingEdges_zero (old : Byte) : risingEdges old 0 = 0 := BitVec.zero_and

/-- A write to port 3 that raises no bit triggers the held bit alone (R123). -/
theorem port3Mask_of_no_rise {old new : Byte} (h : risingEdges old new = 0) : port3Mask old new = old &&& 0x01 := by
  apply BitVec.eq_of_getLsbD_eq
  intro i hi
  have noRise : (new.getLsbD i && !old.getLsbD i) = false := by
    rw [← risingEdges_getLsbD old new hi, h]
    exact BitVec.getLsbD_zero
  rw [port3Mask_getLsbD old new hi, noRise, BitVec.getLsbD_and]
  by_cases level : i = 0
  · cases hn : new.getLsbD i <;> cases ho : old.getLsbD i <;> simp_all
  · simp [level, BitVec.getLsbD_one]

/-- Settles O19: after the first write the latch holds the byte, so the second meets its own value. -/
theorem repeatedAudioWriteTriggersOnlyHeldBit : Obligations.RepeatedAudioWriteTriggersOnlyHeldBit := by
  intro s t v
  constructor
  · intro first
    have running : s.Running := running_of_exec_next first
    obtain rfl := Host.Outcome.next.inj (first.symm.trans (exec_out5_of_running running v))
    rw [← risingEdges_self v]
    exact exec_out5_of_running (s := (s.setPort5Latch v).setReply _) running v
  · intro first
    have running : s.Running := running_of_exec_next first
    obtain rfl := Host.Outcome.next.inj (first.symm.trans (exec_out3_of_running running v))
    rw [← port3Mask_of_no_rise (risingEdges_self v)]
    exact exec_out3_of_running (s := (s.setPort3Latch v).setReply _) running v

end Sys2Proof.Machine
end

section
/-! ## Runs of a script (30_encoding.md R81; 70_reset_and_hazards.md R280) -/

namespace Sys2Proof.Machine

variable {s t : State} {i : Instr} {rest : List HostAction}

theorem step_of_encode (running : s.Running) (hp : s.pending = .issue (encode i) :: rest) :
    step s = exec i (s.setPending rest) :=
  step_of_instr running hp (decodeInvertsEncode i)

/-- A run whose first command completes goes on from the state it leaves. -/
theorem run_succ_of_encode (hp : s.pending = .issue (encode i) :: rest)
    (completes : exec i (s.setPending rest) = .next t) (k : Nat) : run (k + 1) s = run k t := by
  have running : s.Running := running_of_exec_next (s := s.setPending rest) completes
  rw [run_succ, step_of_encode running hp, completes]

theorem run_single (completes : exec i (s.setPending []) = .next t) : run 1 (s.setPending (script [i])) = .next t :=
  run_succ_of_encode (s := s.setPending (script [i])) rfl completes 0

/-- Two OUT 4 leave their bytes in the shift register, whatever it held. -/
theorem run_two_out4 (running : s.Running) {lo hi : Byte}
    (hp : s.pending = .issue (encode (.out4 lo)) :: .issue (encode (.out4 hi)) :: rest) (k : Nat) :
    run (k + 2) s =
      run k (((s.setPending rest).setShiftRegister (hi ++ lo)).setReply (some (.byte noTrigger))) := by
  rw [run_succ_of_encode hp (exec_out4_of_running (by exact running) lo),
    run_succ_of_encode (rest := rest) rfl (exec_out4_of_running (by exact running) hi),
    ← insertByte_insertByte s.shiftRegister lo hi]
  rfl

theorem run_out2 (running : s.Running) {v : Byte} (hp : s.pending = .issue (encode (.out2 v)) :: rest) (k : Nat) :
    run (k + 1) s =
      run k (((s.setPending rest).setShiftAmount (shiftAmountOf v)).setReply (some (.byte noTrigger))) :=
  run_succ_of_encode hp (exec_out2_of_running (s := s.setPending rest) running v) k

theorem run_in3 (running : s.Running) (hp : s.pending = .issue (encode .in3) :: rest) (k : Nat) :
    run (k + 1) s =
      run k ((s.setPending rest).setReply (some (.byte (shiftWindow s.shiftRegister s.shiftAmount)))) :=
  run_succ_of_encode hp (readPort_of_running (s := s.setPending rest) running _) k

/-- OUT 4, OUT 4 and OUT 2 set the shift register and the shift amount, whatever they held. -/
theorem run_shift_writes (running : s.Running) {lo hi v : Byte}
    (hp : s.pending = script [.out4 lo, .out4 hi, .out2 v] ++ rest) (k : Nat) :
    run (k + 3) s =
      run k ((((s.setPending rest).setShiftRegister (hi ++ lo)).setShiftAmount (shiftAmountOf v)).setReply
        (some (.byte noTrigger))) :=
  (run_two_out4 running hp (k + 1)).trans (run_out2 (rest := rest) (by exact running) rfl k)

/-- Settles O21: on a running block the three writes leave a state without either old value; a marked block takes no step. -/
theorem shiftDrawsBecomeUnobservable : Obligations.ShiftDrawsBecomeUnobservable := by
  intro s sr sa lo hi v rest hp
  set s' : State := { s with shiftRegister := sr, shiftAmount := sa }
  cases hf : s.fault with
  | some f => rw [run_succ, run_succ, step_of_fault (s := s') hf, step_of_fault hf]
  | none =>
    cases hr : s.refused with
    | true => rw [run_succ, run_succ, step_of_refused (s := s') hf hr, step_of_refused hf hr]
    | false =>
      rw [run_shift_writes (s := s') ⟨hf, hr⟩ hp, run_shift_writes ⟨hf, hr⟩ hp]
      rfl

/-- The window after OUT 2 as the digits of R103. -/
theorem shiftWindow_shiftAmountOf (sr : BitVec 16) (k : Byte) :
    shiftWindow sr (shiftAmountOf k) = BitVec.ofNat 8 (sr.toNat / 2 ^ (8 - k.toNat % 8)) := by
  apply BitVec.eq_of_toNat_eq
  rw [shiftWindow_toNat, BitVec.toNat_ofNat, shiftAmountOf, BitVec.toNat_setWidth]

/-- Settles O20: each expansion is run command by command. -/
theorem pseudoOperationsDoWhatTheyStandFor : Obligations.PseudoOperationsDoWhatTheyStandFor := by
  intro s hi lo k running
  have running' (l : List HostAction) : (s.setPending l).Running := running
  refine ⟨run_two_out4 (rest := []) (running' _) rfl 0, ?_, ?_, ?_, ?_, ?_⟩
  · refine (run_out2 (rest := script [.in3]) (running' _) rfl 1).trans
      ((run_in3 (rest := []) (by exact running) rfl 0).trans ?_)
    rw [← shiftAmountOf_eq, ← shiftWindow_shiftAmountOf]
    rfl
  · refine (run_shift_writes (rest := script [.in3]) (running' _) rfl 1).trans
      ((run_in3 (rest := []) (by exact running) rfl 0).trans ?_)
    rw [← shiftAmountOf_eq, ← append_toNat, ← shiftWindow_shiftAmountOf]
    rfl
  · refine (run_single (exec_out3_of_running (running' []) 0x00)).trans ?_
    rw [port3Mask_of_no_rise (risingEdges_zero _)]
    rfl
  · refine (run_single (exec_out5_of_running (running' []) 0x00)).trans ?_
    rw [port5Mask, risingEdges_zero]
    rfl
  · exact run_single (exec_out6_of_running (running' []) 0x00)

end Sys2Proof.Machine
end

section
/-! ## Interrupt codes over a list of changing times (60_exceptions.md R249) -/

namespace Sys2Proof.Machine

theorem Isr.flip_involutive : Function.Involutive Isr.flip
  | .one => rfl
  | .two => rfl

theorem Isr.flip_ne (n : Isr) : n.flip ≠ n := by
  cases n <;> decide

/-- The reply of a firing GENINT, told from the scheduler's state after it. -/
theorem Isr.code_flip (n : Isr) : n.flip.code = if n = .two then .midScreen else .vblank := by
  cases n <;> rfl

/-- Every call of a list of changing times fires: it flips the scheduler, and the last reply, where there was a call or the
state before the list already held such a reply, is the code before the last flip. -/
theorem run_changing_times (calls : List (Time × Cycles)) (s : State) (running : s.Running)
    (changing : List.IsChain (· ≠ ·) (s.lastSampledTime :: calls.map Prod.fst))
    (hp : s.pending = script (calls.map fun call => .genint call.1 call.2)) :
    ∃ t, run calls.length s = .next t ∧ t.pending = [] ∧ t.nextInterrupt = Isr.flip^[calls.length] s.nextInterrupt ∧
      (calls ≠ [] ∨ s.reply = some (.interrupt s.nextInterrupt.flip.code) →
        t.reply = some (.interrupt t.nextInterrupt.flip.code)) := by
  induction calls generalizing s with
  | nil => exact ⟨s, rfl, hp, rfl, fun h => h.resolve_left fun no => no rfl⟩
  | cons call calls ih =>
    obtain ⟨first, later⟩ := List.isChain_cons_cons.1 changing
    set rest := script (calls.map fun call => .genint call.1 call.2)
    set u : State := ((s.setPending rest).setScheduler ⟨s.nextInterrupt.flip, call.1⟩).setReply
      (some (.interrupt s.nextInterrupt.code))
    have fires : exec (.genint call.1 call.2) (s.setPending rest) = .next u :=
      exec_genint_of_changedTime (s := s.setPending rest) running first.symm call.2
    have reply : u.reply = some (.interrupt u.nextInterrupt.flip.code) := by
      change some (Reply.interrupt s.nextInterrupt.code) = some (.interrupt s.nextInterrupt.flip.flip.code)
      rw [Isr.flip_involutive]
    obtain ⟨t, ht, pending, flips, last⟩ := ih u running later rfl
    exact ⟨t, (run_succ_of_encode hp fires _).trans ht, pending, flips, fun _ => last (.inr reply)⟩

/-- Settles O24: an even number of flips is none, an odd number is one. -/
theorem interruptCodesAlternate : Obligations.InterruptCodesAlternate := by
  intro s calls running changing hp
  obtain ⟨t, ht, pending, flips, reply⟩ := run_changing_times calls s running changing hp
  refine ⟨t, ht, pending, fun even => ?_, fun odd => ?_, fun nonempty => ?_⟩
  · rw [flips, Isr.flip_involutive.iterate_even (Nat.even_iff.2 even), id]
  · rw [flips, Isr.flip_involutive.iterate_odd (Nat.odd_iff.2 odd)]
    exact Isr.flip_ne _
  · rw [← Isr.code_flip]
    exact reply (.inl nonempty)

end Sys2Proof.Machine
end

section
/-! ## RESET and SETOPT's parse failure on a running block -/

namespace Sys2Proof.Machine

/-- Settles O46: RESET writes its fields with the two draws, and the marks it clears are clear. -/
theorem resetWritesItsFields : Obligations.ResetWritesItsFields := by
  intro s running
  refine ⟨Config.srReset s.draws, Config.saReset s.draws, ?_⟩
  rw [exec_reset_of_running running, running.1, running.2]
  rfl

/-- Settles O38: the parse failure answers its code in the state itself. -/
theorem setoptParseFailureChangesNothing : Obligations.SetoptParseFailureChangesNothing :=
  fun _ running => ⟨whenRunning_of_running running _, rfl⟩

end Sys2Proof.Machine
end

section
/-! ## BLIT's preconditions and its output pixels (43_blit.md R160 to R168, R175) -/

namespace Sys2Proof.Machine

variable {s t : State} {d n stride a m : Nat} {depth : Depth}

theorem exec_blit_of_unset (running : s.Running) (unset : s.pixelDepth = .unset) :
    exec (.blit d n stride a m) s = raise .badMode s := by
  change execBlit d n stride a m s = _
  rw [execBlit, whenRunning_of_running running, unset]

/-- Settles O25: with no depth BLIT raises before it looks at an operand. -/
theorem blitWithoutDepthFaults : Obligations.BlitWithoutDepthFaults :=
  fun _ _ _ _ _ _ running unset => exec_blit_of_unset running unset

theorem exec_blit_of_violation (running : s.Running) (hd : s.pixelDepth = .bits depth) {f : Fault}
    (violation : blitViolation s.config.hostAddrBits d n stride a m (outputHeight s.orientation)
      (rowBytes s.orientation depth) = some f) :
    exec (.blit d n stride a m) s = raise f s := by
  rw [exec_blit_of_running running hd, violation]

section
variable {bits h rb : Nat}

theorem blitViolation_badSrc (bad : m ≠ 7168 ∨ 2 ^ bits < a + m) :
    blitViolation bits d n stride a m h rb = some (.badSrc a m) :=
  if_pos bad

variable (source : m = 7168) (sourceFits : a + m ≤ 2 ^ bits)
include source sourceFits

theorem blitViolation_of_source :
    blitViolation bits d n stride a m h rb =
      if stride < rb then some (.badStride stride rb)
      else if n < stride * h ∨ 2 ^ bits < d + n then some (.dstSmall d n (stride * h))
      else if a < d + stride * h ∧ d < a + 7168 then some (.overlap a d) else none :=
  if_neg (not_or.2 ⟨not_not.2 source, Nat.not_lt.2 sourceFits⟩)

theorem blitViolation_badStride (bad : stride < rb) :
    blitViolation bits d n stride a m h rb = some (.badStride stride rb) := by
  rw [blitViolation_of_source source sourceFits, if_pos bad]

variable (strideFits : rb ≤ stride)
include strideFits

theorem blitViolation_dstSmall (bad : n < stride * h ∨ 2 ^ bits < d + n) :
    blitViolation bits d n stride a m h rb = some (.dstSmall d n (stride * h)) := by
  rw [blitViolation_of_source source sourceFits, if_neg (Nat.not_lt.2 strideFits), if_pos bad]

theorem blitViolation_overlap (length : stride * h ≤ n) (fits : d + n ≤ 2 ^ bits)
    (bad : a < d + stride * h ∧ d < a + 7168) :
    blitViolation bits d n stride a m h rb = some (.overlap a d) := by
  rw [blitViolation_of_source source sourceFits, if_neg (Nat.not_lt.2 strideFits),
    if_neg (not_or.2 ⟨Nat.not_lt.2 length, Nat.not_lt.2 fits⟩), if_pos bad]

end

/-- R163's table: the height and the row bytes of the four modes. -/
theorem dimensions_of_mode {o : Orientation} {h rb : Nat}
    (mode : (o, depth, h, rb) ∈ [(Orientation.cocktail, Depth.one, 224, 32), (.cocktail, .eight, 224, 256),
      (.upright, .one, 256, 28), (.upright, .eight, 256, 224)]) :
    outputHeight o = h ∧ rowBytes o depth = rb := by
  simp only [List.mem_cons, Prod.mk.injEq, List.not_mem_nil, or_false] at mode
  obtain ⟨rfl, rfl, rfl, rfl⟩ | ⟨rfl, rfl, rfl, rfl⟩ | ⟨rfl, rfl, rfl, rfl⟩ | ⟨rfl, rfl, rfl, rfl⟩ := mode <;>
    exact ⟨rfl, rfl⟩

/-- Settles O26: in each mode the first precondition that fails is the violation, and BLIT raises it. -/
theorem blitChecksPreconditionsInOrder : Obligations.BlitChecksPreconditionsInOrder := by
  intro s d n stride a m depth h rb running hd mode
  obtain ⟨rfl, rfl⟩ := dimensions_of_mode mode
  exact ⟨fun bad => exec_blit_of_violation running hd (blitViolation_badSrc bad),
    fun source sourceFits bad => exec_blit_of_violation running hd (blitViolation_badStride source sourceFits bad),
    fun source sourceFits strideFits bad =>
      exec_blit_of_violation running hd (blitViolation_dstSmall source sourceFits strideFits bad),
    fun source sourceFits strideFits length fits before after =>
      exec_blit_of_violation running hd
        (blitViolation_overlap source sourceFits strideFits length fits ⟨before, after⟩)⟩

/-- Settles O27: BLIT leaves `afterBlit`, which writes the region and nothing else. -/
theorem blitCompletesAndKeepsTheRest : Obligations.BlitCompletesAndKeepsTheRest :=
  fun s d _ stride a _ depth running hd buffers =>
    ⟨s.afterBlit depth d stride a, exec_blit_of_buffersMeet running hd buffers, rfl,
      fun _ outside => blit_read_outside outside⟩

/-- Output pixel (x, y) is set (R166 to R168): pixel x of line y, or in upright orientation pixel 255 - y of line x. -/
def outputPixel (o : Orientation) (mem : Memory) (a y x : Nat) : Bool :=
  match o with
  | .cocktail => sourceBit mem a y x
  | .upright => sourceBit mem a x (255 - y)

/-- An 8-bit output byte is the colour where the output pixel is set (R165). -/
theorem outputByte_eight (o : Orientation) (fg : Byte) (mem : Memory) (a y x : Nat) :
    outputByte o .eight fg mem a y x = if outputPixel o mem a y x then fg else 0x00 := by
  cases o with
  | cocktail => exact colourByte_pix ..
  | upright => exact colourByte_pix ..

/-- Bit `x % 8` of a 1-bit output byte is the output pixel `x` of its row. -/
theorem outputByte_one_getLsbD (o : Orientation) (fg : Byte) (mem : Memory) (a y x : Nat) :
    (outputByte o .one fg mem a y (x / 8)).getLsbD (x % 8) = outputPixel o mem a y x := by
  cases o with
  | cocktail => rfl
  | upright =>
    have bit := transposedByte_getLsbD mem a (x / 8) (uprightPixel y) (Nat.mod_lt x (by decide : 0 < 8))
    rwa [Nat.div_add_mod] at bit

theorem rowBytes_eight (o : Orientation) : rowBytes o .eight = outputWidth o := by
  cases o <;> rfl

theorem div_eight_lt_rowBytes_one {o : Orientation} {x : Nat} (hx : x < outputWidth o) : x / 8 < rowBytes o .one := by
  cases o with
  | cocktail => exact Nat.div_lt_of_lt_mul hx
  | upright => exact Nat.div_lt_of_lt_mul hx

/-- The pixel of an 8-bit blit. -/
theorem afterBlit_eight_read (strideFits : rowBytes s.orientation .eight ≤ stride) {y x : Nat}
    (hy : y < outputHeight s.orientation) (hx : x < outputWidth s.orientation) :
    (s.afterBlit .eight d stride a).mem.read (d + y * stride + x) =
      if outputPixel s.orientation s.mem a y x then s.foregroundColour else 0x00 :=
  (blit_read_row strideFits hy (by rwa [rowBytes_eight])).trans (outputByte_eight ..)

/-- The pixel of a 1-bit blit. -/
theorem afterBlit_one_read (strideFits : rowBytes s.orientation .one ≤ stride) {y x : Nat}
    (hy : y < outputHeight s.orientation) (hx : x < outputWidth s.orientation) :
    ((s.afterBlit .one d stride a).mem.read (d + y * stride + x / 8)).getLsbD (x % 8) =
      outputPixel s.orientation s.mem a y x := by
  have byte := blit_read_row (d := d) (a := a) strideFits hy (div_eight_lt_rowBytes_one hx)
  exact (congrArg (BitVec.getLsbD · (x % 8)) byte).trans (outputByte_one_getLsbD ..)

/-- Settles O29: the 8-bit blit's pixels, the orientation being cocktail. -/
theorem cocktailEightBitExpandsPixels : Obligations.CocktailEightBitExpandsPixels := by
  intro s d n stride a m running cocktail hd buffers
  refine ⟨_, exec_blit_of_buffersMeet running hd (by rwa [cocktail]), fun y x hy hx => ?_⟩
  have pixel := afterBlit_eight_read (s := s) (d := d) (stride := stride) (a := a) (y := y) (x := x)
  rw [cocktail] at pixel
  exact pixel buffers.strideFits hy hx

/-- Settles O30: the 1-bit blit's pixels, the orientation being upright. -/
theorem uprightOneBitRotatesPixels : Obligations.UprightOneBitRotatesPixels := by
  intro s d n stride a m running upright hd buffers
  refine ⟨_, exec_blit_of_buffersMeet running hd (by rwa [upright]), fun y x hy hx => ?_⟩
  have pixel := afterBlit_one_read (s := s) (d := d) (stride := stride) (a := a) (y := y) (x := x)
  rw [upright] at pixel
  exact pixel buffers.strideFits hy hx

/-- Settles O31: the 8-bit blit's pixels, the orientation being upright. -/
theorem uprightEightBitRotatesPixels : Obligations.UprightEightBitRotatesPixels := by
  intro s d n stride a m running upright hd buffers
  refine ⟨_, exec_blit_of_buffersMeet running hd (by rwa [upright]), fun y x hy hx => ?_⟩
  have pixel := afterBlit_eight_read (s := s) (d := d) (stride := stride) (a := a) (y := y) (x := x)
  rw [upright] at pixel
  exact pixel buffers.strideFits hy hx

/-- Settles O34: both blits show the same output pixels. -/
theorem depthsShowTheSameImage : Obligations.DepthsShowTheSameImage := by
  intro s t1 t8 d1 n1 s1 d8 n8 s8 a m y x h1 noFault1 h8 noFault8 hy hx
  obtain ⟨-, buffers1, rfl⟩ := exec_blit_completed h1 noFault1 rfl
  obtain ⟨-, buffers8, rfl⟩ := exec_blit_completed h8 noFault8 rfl
  exact (afterBlit_eight_read buffers8.strideFits hy hx).trans
    (if_congr (by rw [afterBlit_one_read buffers1.strideFits hy hx]) rfl rfl)

end Sys2Proof.Machine
end

section
/-! ## The spec's loops against the region written at once (43_blit.md R164 to R168, R172, R173)

A loop of single byte accesses is followed through the states of memory in between: each is canonical, holds the mode's
output byte at every row and byte the loop has been at, and leaves every address that is no output byte. So it leaves the
source, which the region misses, and every byte it writes is computed from the source as it was before the loop. -/

namespace Sys2Proof.Machine

section
variable {σ ρ : Type}

theorem loop_succ (n : Nat) (body : Nat → σ → σ) (init : σ) :
    loop (n + 1) body init = body n (loop n body init) := by
  simp [loop, List.range_succ]

/-- What a loop keeps: `P i` holds before its turn `i`. -/
theorem loop_induction {n : Nat} {body : Nat → σ → σ} {init : σ} (P : Nat → σ → Prop) (start : P 0 init)
    (turn : ∀ i < n, ∀ x, P i x → P (i + 1) (body i x)) : P n (loop n body init) := by
  induction n with
  | zero => exact start
  | succ n ih =>
    rw [loop_succ]
    exact turn n (Nat.lt_succ_self n) _ (ih fun i hi => turn i (Nat.lt_succ_of_lt hi))

/-- A counter that moves by `k` at each turn is, at turn `i`, its start plus `k * i`. -/
theorem loop_counter (f : Nat → Nat → σ → σ) (k n : Nat) (x : σ) (o : Nat) :
    loop n (fun i st => (f i st.2 st.1, st.2 + k)) (x, o) = (loop n (fun i y => f i (o + k * i) y) x, o + k * n) := by
  induction n with
  | zero => rfl
  | succ n ih =>
    rw [loop_succ, ih, loop_succ, Nat.mul_succ, Nat.add_assoc]

end

/-- The row of an offset into rows of `stride` bytes. -/
theorem offset_div {stride x : Nat} (hx : x < stride) (y : Nat) : (y * stride + x) / stride = y := by
  rw [Nat.mul_comm, Nat.mul_add_div (by omega), Nat.div_eq_of_lt hx, Nat.add_zero]

/-- `mem` is `m` in the middle of a blit: the output bytes of the rows and bytes `done` are written, and what is no output
byte is as in `m`. -/
structure BlitInProgress (o : Orientation) (depth : Depth) (fg : Byte) (d stride a : Nat) (m : Memory)
    (done : Nat → Nat → Prop) (mem : Memory) : Prop where
  canonical : mem.wf = true
  written : ∀ y x, y < outputHeight o → x < rowBytes o depth → done y x →
    mem.read (d + y * stride + x) = outputByte o depth fg m a y x
  kept : ∀ z, (∀ y x, y < outputHeight o → x < rowBytes o depth → z ≠ d + y * stride + x) → mem.read z = m.read z

namespace BlitInProgress

variable {o : Orientation} {depth : Depth} {fg : Byte} {d stride a : Nat} {m mem : Memory}
  {done done' : Nat → Nat → Prop}

theorem start (canonical : m.wf = true) : BlitInProgress o depth fg d stride a m (fun _ _ => False) m :=
  ⟨canonical, fun _ _ _ _ no => no.elim, fun _ _ => rfl⟩

theorem mono (h : BlitInProgress o depth fg d stride a m done mem)
    (sub : ∀ y x, y < outputHeight o → x < rowBytes o depth → done' y x → done y x) :
    BlitInProgress o depth fg d stride a m done' mem :=
  ⟨h.canonical, fun y x hy hx hd => h.written y x hy hx (sub y x hy hx hd), h.kept⟩

/-- What is outside the region is as it was. -/
theorem read_outside (h : BlitInProgress o depth fg d stride a m done mem) (strideFits : rowBytes o depth ≤ stride)
    {z : Nat} (outside : z < d ∨ d + stride * outputHeight o ≤ z) : mem.read z = m.read z := by
  refine h.kept z fun y x hy hx => ?_
  have inside := offset_lt hy (Nat.lt_of_lt_of_le hx strideFits)
  omega

section
variable (strideFits : rowBytes o depth ≤ stride) (apart : d + stride * outputHeight o ≤ a ∨ a + 7168 ≤ d)
include strideFits apart

/-- The source is as it was, so an output byte computed now is the one of the start. -/
theorem outputByte_eq (h : BlitInProgress o depth fg d stride a m done mem) {y x : Nat} (hy : y < outputHeight o)
    (hx : x < rowBytes o depth) : outputByte o depth fg mem a y x = outputByte o depth fg m a y x := by
  refine outputByte_congr (fun q hq => h.read_outside strideFits ?_) hy hx fg
  omega

/-- One access: the output byte of a row and byte, computed now and written to its place. -/
theorem write (h : BlitInProgress o depth fg d stride a m done mem) {y x : Nat} (hy : y < outputHeight o)
    (hx : x < rowBytes o depth) :
    BlitInProgress o depth fg d stride a m (fun y' x' => done y' x' ∨ y' = y ∧ x' = x)
      (mem.write (d + y * stride + x) (outputByte o depth fg mem a y x)) := by
  refine ⟨Memory.write_wf h.canonical _ _, fun y' x' hy' hx' hd => ?_, fun z hz => ?_⟩
  · rw [Memory.read_write h.canonical]
    split
    · next same =>
      have row : y' * stride + x' = y * stride + x := by omega
      obtain rfl : y' = y := by
        rw [← offset_div (show x' < stride by omega) y', row, offset_div (by omega)]
      obtain rfl : x' = x := by omega
      exact h.outputByte_eq strideFits apart hy hx
    · next other =>
      refine h.written y' x' hy' hx' (hd.resolve_right ?_)
      rintro ⟨rfl, rfl⟩
      exact other rfl
  · rw [Memory.read_write h.canonical, if_neg (hz y x hy hx)]
    exact h.kept z hz

end

/-- A loop of blits in progress. -/
theorem loop {n : Nat} {body : Nat → Memory → Memory} {turns : Nat → Nat → Nat → Prop}
    (h : BlitInProgress o depth fg d stride a m done mem)
    (turn : ∀ i < n, ∀ done mem, BlitInProgress o depth fg d stride a m done mem →
      BlitInProgress o depth fg d stride a m (fun y x => done y x ∨ turns i y x) (body i mem)) :
    BlitInProgress o depth fg d stride a m (fun y x => done y x ∨ ∃ i < n, turns i y x) (Machine.loop n body mem) := by
  refine loop_induction
    (fun k mem => BlitInProgress o depth fg d stride a m (fun y x => done y x ∨ ∃ i < k, turns i y x) mem)
    (h.mono fun y x _ _ hd => hd.resolve_right (by simp)) fun k hk mem hmem => ?_
  refine (turn k hk _ mem hmem).mono fun y x _ _ hd => ?_
  obtain hd | ⟨i, hi, ht⟩ := hd
  · exact .inl (.inl hd)
  · obtain hi | rfl := Nat.lt_succ_iff_lt_or_eq.1 hi
    · exact .inl (.inr ⟨i, hi, ht⟩)
    · exact .inr ht

/-- Two finished blits of one memory leave the same bytes. -/
theorem read_eq {mem' : Memory} (h : BlitInProgress o depth fg d stride a m (fun _ _ => True) mem)
    (h' : BlitInProgress o depth fg d stride a m (fun _ _ => True) mem') (z : Nat) : mem.read z = mem'.read z := by
  by_cases output : ∃ y x, y < outputHeight o ∧ x < rowBytes o depth ∧ z = d + y * stride + x
  · obtain ⟨y, x, hy, hx, rfl⟩ := output
    rw [h.written y x hy hx trivial, h'.written y x hy hx trivial]
  · have noOutput : ∀ y x, y < outputHeight o → x < rowBytes o depth → z ≠ d + y * stride + x :=
      fun y x hy hx he => output ⟨y, x, hy, hx, he⟩
    rw [h.kept z noOutput, h'.kept z noOutput]

end BlitInProgress

/-- The line pixel 255 - (255 - k) of output row 255 - k is k. -/
theorem uprightPixel_sub {k : Nat} (hk : k < 256) : uprightPixel (255 - k) = k := by
  unfold uprightPixel
  omega

section
variable {fg : Byte} {d stride a : Nat} {m : Memory} (canonical : m.wf = true)
include canonical

theorem loopCocktail1_finishes (strideFits : 32 ≤ stride) (apart : d + stride * 224 ≤ a ∨ a + 7168 ≤ d) :
    BlitInProgress .cocktail .one fg d stride a m (fun _ _ => True) (loopCocktail1 d stride a m) := by
  have run := (BlitInProgress.start (o := .cocktail) (depth := .one) (fg := fg) (d := d) (stride := stride) (a := a)
    canonical).loop (n := 224) fun r hr done mem h => h.loop (n := 32) fun x hx done mem h =>
      h.write strideFits apart (y := r) (x := x) hr hx
  exact run.mono fun y x hy hx _ => .inr ⟨y, hy, x, hx, rfl, rfl⟩

theorem loopCocktail8_finishes (strideFits : 256 ≤ stride) (apart : d + stride * 224 ≤ a ∨ a + 7168 ≤ d) :
    BlitInProgress .cocktail .eight fg d stride a m (fun _ _ => True) (loopCocktail8 fg d stride a m) := by
  have run := (BlitInProgress.start (o := .cocktail) (depth := .eight) (fg := fg) (d := d) (stride := stride) (a := a)
    canonical).loop (n := 224) fun r hr done mem h => h.loop (n := 256) fun k hk done mem h =>
      h.write strideFits apart (y := r) (x := k) hr hk
  exact run.mono fun y x hy hx _ => .inr ⟨y, hy, x, hx, rfl, rfl⟩

theorem loopUpright1_finishes (strideFits : 28 ≤ stride) (apart : d + stride * 256 ≤ a ∨ a + 7168 ≤ d) :
    BlitInProgress .upright .one fg d stride a m (fun _ _ => True) (loopUpright1 d stride a m) := by
  have run := (BlitInProgress.start (o := .upright) (depth := .one) (fg := fg) (d := d) (stride := stride) (a := a)
    canonical).loop (n := 28) fun c hc done mem h => h.loop (n := 256) fun y hy done mem h =>
      h.write strideFits apart (y := y) (x := c) hy hc
  exact run.mono fun y x hy hx _ => .inr ⟨x, hx, y, hy, rfl, rfl⟩

theorem loopUpright8_finishes (strideFits : 224 ≤ stride) (apart : d + stride * 256 ≤ a ∨ a + 7168 ≤ d) :
    BlitInProgress .upright .eight fg d stride a m (fun _ _ => True) (loopUpright8 fg d stride a m) := by
  have run := (BlitInProgress.start (o := .upright) (depth := .eight) (fg := fg) (d := d) (stride := stride) (a := a)
    canonical).loop (n := 224) fun r hr done mem h => h.loop (n := 256)
      (body := fun k mem => mem.write (d + (255 - k) * stride + r) (pix mem a r k * fg))
      (turns := fun k y x => y = 255 - k ∧ x = r) fun k hk done mem h => by
        have byte := h.write strideFits apart (y := 255 - k) (x := r) (show 255 - k < 256 by omega) hr
        rw [outputByte, uprightPixel_sub hk] at byte
        exact byte
  exact run.mono fun y x hy hx _ => .inr ⟨x, hx, 255 - y, by omega, by change y < 256 at hy; omega, rfl⟩

/-- The loops of a mode finish its blit. -/
theorem loopBlit_finishes (o : Orientation) (depth : Depth) (strideFits : rowBytes o depth ≤ stride)
    (apart : d + stride * outputHeight o ≤ a ∨ a + 7168 ≤ d) :
    BlitInProgress o depth fg d stride a m (fun _ _ => True) (loopBlit o depth fg d stride a m) := by
  cases o with
  | cocktail =>
    cases depth with
    | one => exact loopCocktail1_finishes canonical strideFits apart
    | eight => exact loopCocktail8_finishes canonical strideFits apart
  | upright =>
    cases depth with
    | one => exact loopUpright1_finishes canonical strideFits apart
    | eight => exact loopUpright8_finishes canonical strideFits apart

end

/-- Settles O32: the loops finish the blit whose region `afterBlit` writes at once. -/
theorem blitRefinesTheLoops : Obligations.BlitRefinesTheLoops := by
  intro s d n stride a m depth running canonical hd buffers
  have finished := loopBlit_finishes (fg := s.foregroundColour) canonical s.orientation depth buffers.strideFits
    buffers.apart
  refine ⟨s.afterBlit depth d stride a, exec_blit_of_buffersMeet running hd buffers, fun y x hy hx => ?_,
    fun x outside => ?_⟩
  · exact (blit_read_row buffers.strideFits hy hx).trans (finished.written y x hy hx trivial).symm
  · exact (blit_read_outside outside).trans (finished.read_outside buffers.strideFits outside).symm

/-- What the source's traversal does with the eight pixels of byte `b` of the lines `8c` to `8c + 7`, from its running offset
`off` (R173). -/
def traverseByte (d stride a c b off : Nat) (mem : Memory) : Memory :=
  loop 8 (fun i mem =>
    mem.write (d + (255 - (8 * b + i)) * stride + c)
      (loop 8 (fun j out => out ||| (((mem.read (a + (off + 32 * j)) >>> i) &&& 1) <<< j)) 0)) mem

/-- The running offset is 256 for each eight lines and 1 for each byte. -/
theorem sourceTraversal_eq (d stride a : Nat) (m : Memory) :
    sourceTraversal d stride a m =
      loop 28 (fun c => loop 32 fun b => traverseByte d stride a c b (256 * c + b)) m := by
  have bytes (c : Nat) (mem : Memory) (off : Nat) :
      loop 32 (fun b st => (traverseByte d stride a c b st.2 st.1, st.2 + 1)) (mem, off) =
        (loop 32 (fun b => traverseByte d stride a c b (off + b)) mem, off + 32) := by
    simpa using loop_counter (traverseByte d stride a c) 1 32 mem off
  have lines := loop_counter (fun c off mem => loop 32 (fun b => traverseByte d stride a c b (off + b)) mem) 256 28 m 0
  calc
    sourceTraversal d stride a m = (loop 28 (fun c st =>
        ((loop 32 (fun b st => (traverseByte d stride a c b st.2 st.1, st.2 + 1)) st).1,
          (loop 32 (fun b st => (traverseByte d stride a c b st.2 st.1, st.2 + 1)) st).2 + 224)) (m, 0)).1 := rfl
    _ = (loop 28 (fun c st =>
        (loop 32 (fun b => traverseByte d stride a c b (st.2 + b)) st.1, st.2 + 256)) (m, 0)).1 := by
      simp only [fun c st => bytes c (Prod.fst st) (Prod.snd st), Nat.add_assoc]
    _ = _ := by
      rw [lines]
      simp only [Nat.zero_add]

/-- From the offset of its byte, the traversal computes the transposed byte of R167. -/
theorem traverseByte_value (mem : Memory) (a c : Nat) {b i : Nat} (hi : i < 8) :
    loop 8 (fun j out => out ||| (((mem.read (a + (256 * c + b + 32 * j)) >>> i) &&& 1) <<< j)) 0 =
      transposedByte mem a c (8 * b + i) := by
  refine List.foldl_ext _ _ _ fun out j _ => ?_
  have place : a + (256 * c + b + 32 * j) = a + 32 * (8 * c + j) + (8 * b + i) / 8 := by omega
  have bit : (8 * b + i) % 8 = i := by omega
  rw [pix, sourceByte, lineBytes, ← place, bit]

theorem sourceTraversal_finishes {fg : Byte} {d stride a : Nat} {m : Memory} (canonical : m.wf = true)
    (strideFits : 28 ≤ stride) (apart : d + stride * 256 ≤ a ∨ a + 7168 ≤ d) :
    BlitInProgress .upright .one fg d stride a m (fun _ _ => True) (sourceTraversal d stride a m) := by
  rw [sourceTraversal_eq]
  have run := (BlitInProgress.start (o := .upright) (depth := .one) (fg := fg) (d := d) (stride := stride) (a := a)
    canonical).loop (n := 28) fun c hc done mem h => h.loop (n := 32)
      (body := fun b => traverseByte d stride a c b (256 * c + b)) fun b hb done mem h => h.loop (n := 8)
      (turns := fun i y x => y = 255 - (8 * b + i) ∧ x = c) fun i hi done mem h => by
        have pixel : 8 * b + i < 256 := by omega
        have byte := h.write strideFits apart (y := 255 - (8 * b + i)) (x := c)
          (show 255 - (8 * b + i) < 256 by omega) hc
        rw [outputByte, uprightPixel_sub pixel, ← traverseByte_value mem a c hi] at byte
        exact byte
  refine run.mono fun y x hy hx _ => .inr ⟨x, hx, (255 - y) / 8, by omega, (255 - y) % 8, by omega, ?_, rfl⟩
  change y < 256 at hy
  omega

/-- Settles O33: both finish the upright 1-bit blit of one memory. -/
theorem sourceTraversalGivesUprightMapping : Obligations.SourceTraversalGivesUprightMapping :=
  fun _ _ _ _ canonical strideFits apart x =>
    (sourceTraversal_finishes (fg := 0) canonical strideFits apart).read_eq
      (loopUpright1_finishes canonical strideFits apart) x

end Sys2Proof.Machine
end

section
/-! ## The keys of a list of options (44_options.md R200, R204) -/

namespace Sys2Proof.Machine

variable {o o' : List (String × Value)} {key : String} {v w : Value}

theorem hasDuplicateKey_eq_false_iff : hasDuplicateKey o = false ↔ NoDuplicateKey o := by
  simp [hasDuplicateKey, recognizedKeys, NoDuplicateKey, List.countP_eq_length_filter]

theorem bpp_recognized : "bpp" ∈ recognizedKeys := by simp [recognizedKeys]

theorem colour_recognized : "colour" ∈ recognizedKeys := by simp [recognizedKeys]

theorem orientation_recognized : "orientation" ∈ recognizedKeys := by simp [recognizedKeys]

theorem NoDuplicateKey.perm (h : NoDuplicateKey o) (hp : o.Perm o') : NoDuplicateKey o' :=
  fun key hk => ((hp.filter _).length_eq).symm.trans_le (h key hk)

theorem noDuplicateKey_singleton (pair : String × Value) : NoDuplicateKey [pair] :=
  fun _ _ => List.length_filter_le _ [pair]

theorem NoAmbiguousBpp.singleton (h : NoAmbiguousBpp o) {pair : String × Value} (hp : pair ∈ o) : NoAmbiguousBpp [pair] :=
  fun x hx => h x (List.mem_singleton.1 hx ▸ hp)

/-- A recognized key that is not given twice has one value. -/
theorem NoDuplicateKey.value_unique (h : NoDuplicateKey o) (hk : key ∈ recognizedKeys) (hv : (key, v) ∈ o)
    (hw : (key, w) ∈ o) : v = w := by
  have one := h key hk
  have mem {u : Value} (hu : (key, u) ∈ o) : (key, u) ∈ o.filter fun pair => pair.1 == key :=
    List.mem_filter.2 ⟨hu, beq_self_eq_true key⟩
  obtain ⟨i, hi, ei⟩ := List.getElem_of_mem (mem hv)
  obtain ⟨j, hj, ej⟩ := List.getElem_of_mem (mem hw)
  obtain rfl : i = j := by omega
  exact congrArg Prod.snd (ei.symm.trans ej)

theorem mem_of_lookup (h : o.lookup key = some v) : (key, v) ∈ o := by
  obtain ⟨l₁, l₂, rfl, -⟩ := List.lookup_eq_some_iff.1 h
  simp

theorem lookup_of_mem (h : NoDuplicateKey o) (hk : key ∈ recognizedKeys) (hv : (key, v) ∈ o) :
    o.lookup key = some v := by
  cases found : o.lookup key with
  | none => simpa using List.lookup_eq_none_iff.1 found (key, v) hv
  | some w => rw [h.value_unique hk (mem_of_lookup found) hv]

section
variable {α : Type} {handler : Value → KeyOutcome α}

theorem keyOutcome_of_mem (h : NoDuplicateKey o) (hk : key ∈ recognizedKeys) (hv : (key, v) ∈ o) :
    keyOutcome key handler o = handler v := by
  rw [keyOutcome, lookup_of_mem h hk hv]

theorem keyOutcome_of_forall_not_mem (h : ∀ v, (key, v) ∉ o) : keyOutcome key handler o = .absent := by
  cases found : o.lookup key with
  | none => rw [keyOutcome, found]
  | some v => exact absurd (mem_of_lookup found) (h v)

theorem keyOutcome_singleton_same : keyOutcome key handler [(key, v)] = handler v := by
  simp [keyOutcome]

theorem keyOutcome_singleton_other {key' : String} (h : key ≠ key') : keyOutcome key handler [(key', v)] = .absent :=
  keyOutcome_of_forall_not_mem (by simp [h])

/-- What a key comes to, where no recognized key is given twice: its one value's outcome, or absent. -/
theorem keyOutcome_cases (h : NoDuplicateKey o) (hk : key ∈ recognizedKeys) :
    (∃ v, (key, v) ∈ o ∧ keyOutcome key handler o = handler v) ∨
      (∀ v, (key, v) ∉ o) ∧ keyOutcome key handler o = .absent := by
  by_cases given : ∃ v, (key, v) ∈ o
  · obtain ⟨v, hv⟩ := given
    exact .inl ⟨v, hv, keyOutcome_of_mem h hk hv⟩
  · exact .inr ⟨not_exists.1 given, keyOutcome_of_forall_not_mem (not_exists.1 given)⟩

/-- The order of the pairs does not matter to a key. -/
theorem keyOutcome_perm (h : NoDuplicateKey o) (hk : key ∈ recognizedKeys) (hp : o.Perm o') :
    keyOutcome key handler o = keyOutcome key handler o' := by
  obtain ⟨v, hv, found⟩ | ⟨no, absent⟩ := keyOutcome_cases (handler := handler) h hk
  · rw [found, keyOutcome_of_mem (h.perm hp) hk (hp.mem_iff.1 hv)]
  · rw [absent, keyOutcome_of_forall_not_mem fun v hv => no v (hp.mem_iff.2 hv)]

theorem keyOutcome_isFailed_iff (h : NoDuplicateKey o) (hk : key ∈ recognizedKeys) :
    (keyOutcome key handler o).isFailed = true ↔ ∃ v, (key, v) ∈ o ∧ (handler v).isFailed = true := by
  obtain ⟨v, hv, found⟩ | ⟨no, absent⟩ := keyOutcome_cases (handler := handler) h hk
  · rw [found]
    exact ⟨fun failed => ⟨v, hv, failed⟩, fun ⟨w, hw, failed⟩ => h.value_unique hk hw hv ▸ failed⟩
  · rw [absent]
    exact ⟨fun failed => (Bool.false_ne_true failed).elim, fun ⟨v, hv, _⟩ => (no v hv).elim⟩

end

/-- The decimal test of R204 compares the numbers themselves. -/
theorem decimalIs_iff (x : Decimal) (n : Nat) : decimalIs x n = true ↔ decimalValue x = n := by
  simp only [decimalIs, decimalValue]
  generalize x.exponent.getD 0 - (x.fraction : Int) = e
  split
  · next nonneg =>
    obtain ⟨k, rfl⟩ := Int.eq_ofNat_of_zero_le nonneg
    rw [beq_iff_eq, Int.toNat_natCast, zpow_natCast]
    exact_mod_cast Iff.rfl
  · next negative =>
    obtain ⟨k, rfl⟩ := Int.exists_eq_neg_ofNat (by omega : e ≤ 0)
    have pos : (10 : ℚ) ^ k ≠ 0 := by positivity
    rw [beq_iff_eq, neg_neg, Int.toNat_natCast, zpow_neg, zpow_natCast, mul_inv_eq_iff_eq_mul₀ pos]
    exact_mod_cast Iff.rfl

theorem bppValue_num_isAmbiguous_iff (x : Decimal) :
    (bppValue (.num x)).isAmbiguous = true ↔ decimalValue x = 1 ∨ decimalValue x = 8 := by
  have one := decimalIs_iff x 1
  have eight := decimalIs_iff x 8
  push_cast at one eight
  rw [← one, ← eight, ← Bool.or_eq_true, bppValue]
  split
  · next ambiguous => exact iff_of_true rfl ambiguous
  · next other => exact iff_of_false Bool.false_ne_true other

theorem bppValue_isAmbiguous_iff : (bppValue v).isAmbiguous = true ↔
    ∃ x, v = .num x ∧ (decimalValue x = 1 ∨ decimalValue x = 8) := by
  cases v with
  | num x => simp [bppValue_num_isAmbiguous_iff]
  | int n =>
    simp only [reduceCtorEq, false_and, exists_false, iff_false, bppValue]
    split_ifs <;> exact Bool.false_ne_true
  | str t => simp [bppValue, KeyOutcome.isAmbiguous]
  | bool | null | composite => simp [bppValue, KeyOutcome.isAmbiguous]

theorem bpp_isAmbiguous_iff (h : NoDuplicateKey o) :
    (keyOutcome "bpp" bppValue o).isAmbiguous = true ↔ ¬NoAmbiguousBpp o := by
  have ambiguous : ¬NoAmbiguousBpp o ↔ ∃ v, ("bpp", v) ∈ o ∧ (bppValue v).isAmbiguous = true := by
    simp only [bppValue_isAmbiguous_iff, NoAmbiguousBpp]
    push Not
    constructor
    · rintro ⟨x, hx, imp⟩
      exact ⟨_, hx, x, rfl, or_iff_not_imp_left.2 imp⟩
    · rintro ⟨_, hx, x, rfl, which⟩
      exact ⟨x, hx, or_iff_not_imp_left.1 which⟩
  rw [ambiguous]
  obtain ⟨v, hv, found⟩ | ⟨no, absent⟩ := keyOutcome_cases (handler := bppValue) h bpp_recognized
  · rw [found]
    exact ⟨fun amb => ⟨v, hv, amb⟩, fun ⟨w, hw, amb⟩ => h.value_unique bpp_recognized hw hv ▸ amb⟩
  · rw [absent]
    exact ⟨fun amb => (Bool.false_ne_true amb).elim, fun ⟨v, hv, _⟩ => (no v hv).elim⟩

end Sys2Proof.Machine
end

section
/-! ## SETOPT of any list: refused, or applied (44_options.md R200, R203; 60_exceptions.md R247) -/

namespace Sys2Proof.Machine

variable {s : State} {o o' : List (String × Value)}

theorem exec_setopt_pairs (running : s.Running) (o : List (String × Value)) :
    exec (.setopt (.pairs o)) s = setPairs o s :=
  whenRunning_of_running running _

theorem setPairs_of_duplicate (h : ¬NoDuplicateKey o) : setPairs o s = refuse s := by
  rw [← hasDuplicateKey_eq_false_iff, Bool.not_eq_false] at h
  rw [setPairs, if_pos h]

theorem setPairs_of_noDuplicate (h : NoDuplicateKey o) :
    setPairs o s =
      if (keyOutcome "bpp" bppValue o).isAmbiguous then refuse s
      else applyKeys (keyOutcome "bpp" bppValue o) (keyOutcome "colour" (colourValue (drawnColour s.draws)) o)
        (keyOutcome "orientation" orientationValue o) s := by
  rw [setPairs, if_neg (by simp [hasDuplicateKey_eq_false_iff.2 h])]

/-- Settles O39: a duplicate is refused first, then an ambiguous `bpp`. -/
theorem setoptRefusesUnsettledForms : Obligations.SetoptRefusesUnsettledForms := by
  intro s o running refused
  rw [exec_setopt_pairs running]
  obtain duplicate | ⟨single, ambiguous⟩ := refused
  · exact setPairs_of_duplicate duplicate
  · rw [setPairs_of_noDuplicate single, if_pos ((bpp_isAmbiguous_iff single).2 ambiguous)]
    rfl

/-- Settles O45: the refusals and the three keys' outcomes are the same for a permuted list. -/
theorem setoptOrderDoesNotMatter : Obligations.SetoptOrderDoesNotMatter := by
  intro s o o' hp
  refine congrArg (whenRunning s) (?_ : setPairs o s = setPairs o' s)
  by_cases single : NoDuplicateKey o
  · rw [setPairs_of_noDuplicate single, setPairs_of_noDuplicate (single.perm hp),
      keyOutcome_perm single bpp_recognized hp, keyOutcome_perm single colour_recognized hp,
      keyOutcome_perm single orientation_recognized hp]
  · rw [setPairs_of_duplicate single, setPairs_of_duplicate fun single' => single (single'.perm hp.symm)]

/-- The state SETOPT leaves when it applies its keys (R203). -/
def State.afterKeys (s : State) (b : KeyOutcome PixelDepth) (c : KeyOutcome Byte) (r : KeyOutcome Orientation) : State :=
  ((((s.setPixelDepth (b.apply s.pixelDepth)).setForegroundColour (c.apply s.foregroundColour)).setOrientation
    (r.apply s.orientation)).afterDraw).setReply
      (some (.option (resultCode (Config.failedChoice s.draws) (failedCodes b c r))))

theorem exec_setopt_of_legal (running : s.Running) (single : NoDuplicateKey o) (legal : NoAmbiguousBpp o) :
    exec (.setopt (.pairs o)) s =
      .next (s.afterKeys (keyOutcome "bpp" bppValue o) (keyOutcome "colour" (colourValue (drawnColour s.draws)) o)
        (keyOutcome "orientation" orientationValue o)) := by
  rw [exec_setopt_pairs running, setPairs_of_noDuplicate single,
    if_neg fun ambiguous => (bpp_isAmbiguous_iff single).1 ambiguous legal]
  rfl

/-- Settles O44: every key is absent. -/
theorem setoptIgnoresUnrecognizedKeys : Obligations.SetoptIgnoresUnrecognizedKeys := by
  intro s o running unrecognized
  have absent {key : String} (hk : key ∈ recognizedKeys) (v : Value) : (key, v) ∉ o := by
    intro hv
    obtain ⟨noBpp, noColour, noOrientation⟩ := unrecognized _ hv
    simp only [recognizedKeys, List.mem_cons, List.not_mem_nil, or_false] at hk
    obtain rfl | rfl | rfl := hk
    · exact noBpp rfl
    · exact noColour rfl
    · exact noOrientation rfl
  have single : NoDuplicateKey o := by
    intro key hk
    rw [List.filter_eq_nil_iff.2 fun pair hp same => absent hk pair.2 (beq_iff_eq.1 same ▸ hp)]
    exact Nat.zero_le 1
  have legal : NoAmbiguousBpp o := fun x hx => absurd hx (absent bpp_recognized _)
  rw [exec_setopt_of_legal running single legal,
    keyOutcome_of_forall_not_mem (absent bpp_recognized), keyOutcome_of_forall_not_mem (absent colour_recognized),
    keyOutcome_of_forall_not_mem (absent orientation_recognized)]
  rfl

end Sys2Proof.Machine
end

section
/-! ## SETOPT of one key (44_options.md R203 to R210) -/

namespace Sys2Proof.Machine

variable {s : State} {v : Value}

theorem exec_setopt_bpp (running : s.Running) (legal : NoAmbiguousBpp [("bpp", v)]) :
    exec (.setopt (.pairs [("bpp", v)])) s = .next (s.afterKeys (bppValue v) .absent .absent) := by
  rw [exec_setopt_of_legal running (noDuplicateKey_singleton _) legal, keyOutcome_singleton_same,
    keyOutcome_singleton_other (by decide), keyOutcome_singleton_other (by decide)]

/-- A list without the key `bpp` has no ambiguous one. -/
theorem noAmbiguousBpp_singleton {key : String} (h : "bpp" ≠ key) : NoAmbiguousBpp [(key, v)] :=
  fun _ hx => absurd (congrArg Prod.fst (List.mem_singleton.1 hx)) h

theorem exec_setopt_colour (running : s.Running) :
    exec (.setopt (.pairs [("colour", v)])) s =
      .next (s.afterKeys .absent (colourValue (drawnColour s.draws) v) .absent) := by
  rw [exec_setopt_of_legal running (noDuplicateKey_singleton _) (noAmbiguousBpp_singleton (by decide)),
    keyOutcome_singleton_same, keyOutcome_singleton_other (by decide), keyOutcome_singleton_other (by decide)]

theorem exec_setopt_orientation (running : s.Running) :
    exec (.setopt (.pairs [("orientation", v)])) s = .next (s.afterKeys .absent .absent (orientationValue v)) := by
  rw [exec_setopt_of_legal running (noDuplicateKey_singleton _) (noAmbiguousBpp_singleton (by decide)),
    keyOutcome_singleton_same, keyOutcome_singleton_other (by decide), keyOutcome_singleton_other (by decide)]

/-- One failing key has one code to choose from. -/
theorem resultCode_singleton (choice : Nat) (code : OptionCode) : resultCode choice [code] = code := by
  simp [resultCode, Nat.mod_one]

/-- Where one code can be returned, the state SETOPT leaves. -/
theorem State.afterKeys_of_failedCodes {b : KeyOutcome PixelDepth} {c : KeyOutcome Byte} {r : KeyOutcome Orientation}
    {code : OptionCode} (h : failedCodes b c r = [code]) :
    s.afterKeys b c r =
      { s with
        pixelDepth := b.apply s.pixelDepth, foregroundColour := c.apply s.foregroundColour
        orientation := r.apply s.orientation, reply := some (.option code), draws := s.draws + 1 } := by
  rw [State.afterKeys, h, resultCode_singleton]
  rfl

/-- Settles O40: the two integers are accepted, and every other value that is not ambiguous fails. -/
theorem setoptBppKey : Obligations.SetoptBppKey := by
  intro s v running legal
  rw [exec_setopt_bpp running legal]
  refine ⟨?_, ?_, fun not1 not8 => ?_⟩
  · rintro rfl
    rfl
  · rintro rfl
    rfl
  · have failed : bppValue v = .failed := by
      cases v with
      | int n =>
        rw [bppValue, if_neg fun e => not1 (congrArg _ e), if_neg fun e => not8 (congrArg _ e)]
      | num x =>
        obtain ⟨other1, other8⟩ := legal x List.mem_cons_self
        have clear : ¬(bppValue (.num x)).isAmbiguous = true :=
          mt (bppValue_num_isAmbiguous_iff x).1 (not_or.2 ⟨other1, other8⟩)
        rw [bppValue] at clear ⊢
        split_ifs at clear ⊢ with ambiguous
        · exact absurd rfl clear
        · rfl
      | str t | bool | null | composite => rfl
    rw [failed, State.afterKeys_of_failedCodes rfl]
    rfl

/-- Settles O42: the two strings are accepted, and every other value fails. -/
theorem setoptOrientationKey : Obligations.SetoptOrientationKey := by
  intro s v running
  rw [exec_setopt_orientation running]
  refine ⟨?_, ?_, fun notUpright notCocktail => ?_⟩
  · rintro rfl
    rfl
  · rintro rfl
    rfl
  · have failed : orientationValue v = .failed := by
      cases v with
      | str t =>
        rw [orientationValue, if_neg fun e => notUpright (congrArg _ e), if_neg fun e => notCocktail (congrArg _ e)]
      | int n => rfl
      | num x => rfl
      | bool | null | composite => rfl
    rw [failed, State.afterKeys_of_failedCodes rfl]
    rfl

/-- `h(c)` of R208 is defined exactly on the hex digits of either case. -/
theorem hexDigit_eq_some_iff {c : Char} {n : Nat} : hexDigit c = some n ↔ HexDigitIs c n := by
  constructor
  · intro h
    unfold hexDigit at h
    rw [← Char.ofNat_toNat c]
    generalize c.toNat = k at h
    simp only at h
    split_ifs at h with digit upper lower
    all_goals obtain rfl := Option.some.inj h
    · obtain ⟨low, high⟩ := digit
      interval_cases k <;> exact .inl rfl
    · obtain ⟨low, high⟩ := upper
      interval_cases k <;> exact .inr rfl
    · obtain ⟨low, high⟩ := lower
      interval_cases k <;> exact .inl rfl
  · rintro (h | h)
    all_goals
      have hn : n < 16 := (List.getElem?_eq_some_iff.1 h).1
      interval_cases n <;> (obtain rfl := Option.some.inj h; rfl)

/-- `hexvalue(t)` of R208 is defined exactly on the strings of two hex digits. -/
theorem hexColour_eq_some_iff {t : String} {v : Byte} :
    hexColour t = some v ↔
      ∃ c0 c1 h0 h1, HexDigitIs c0 h0 ∧ HexDigitIs c1 h1 ∧ t = String.ofList [c0, c1] ∧
        BitVec.ofNat 8 (16 * h0 + h1) = v := by
  constructor
  · intro h
    unfold hexColour at h
    split at h
    · next c0 c1 chars =>
      split at h
      · next h0 h1 e0 e1 =>
        exact ⟨c0, c1, h0, h1, hexDigit_eq_some_iff.1 e0, hexDigit_eq_some_iff.1 e1,
          by rw [← chars, String.ofList_toList], Option.some.inj h⟩
      · cases h
    · cases h
  · rintro ⟨c0, c1, h0, h1, e0, e1, rfl, rfl⟩
    simp only [hexColour, String.toList_ofList, hexDigit_eq_some_iff.2 e0, hexDigit_eq_some_iff.2 e1]

/-- No name of R206 is a string of two characters. -/
theorem two_chars_ne_name {c0 c1 : Char} {name : String} (h : name ∈ ["red", "green", "blue", "white", "random"]) :
    String.ofList [c0, c1] ≠ name := by
  rintro rfl
  have lengths : ∀ name ∈ ["red", "green", "blue", "white", "random"], name.toList.length ≠ 2 := by decide
  exact lengths _ h (by rw [String.toList_ofList]; rfl)

theorem namedColour_eq_none {t : String} (h : ∀ name ∈ ["red", "green", "blue", "white", "random"], t ≠ name) :
    namedColour t = none := by
  rw [namedColour, if_neg (h _ (by simp)), if_neg (h _ (by simp)), if_neg (h _ (by simp)), if_neg (h _ (by simp))]

/-- A string that is no name is what `hexvalue` makes of it. -/
theorem colourValue_of_no_name {t : String} (drawn : Byte)
    (h : ∀ name ∈ ["red", "green", "blue", "white", "random"], t ≠ name) :
    colourValue drawn (.str t) =
      match hexColour t with
      | some c => .accepted c
      | none => .failed := by
  rw [colourValue, namedColour_eq_none h]
  exact if_neg (h _ (by simp))

/-- A drawn colour is never 0xFF (R207). -/
theorem drawnColour_ne (n : Nat) : drawnColour n ≠ 0xFF := by
  have below := (Config.randomColour n).isLt
  intro e
  have number := congrArg BitVec.toNat e
  rw [drawnColour, BitVec.toNat_ofNat, Nat.mod_eq_of_lt (by omega)] at number
  simp at number
  omega

/-- Settles O41: names, `random` and hex pairs are accepted, and every other value fails. -/
theorem setoptColourKey : Obligations.SetoptColourKey := by
  intro s running
  refine ⟨fun name c named => ?_, ⟨drawnColour s.draws, drawnColour_ne _, ?_⟩, fun c0 c1 h0 h1 e0 e1 => ?_,
    fun v noName noHex => ?_⟩
  · rw [exec_setopt_colour running]
    simp only [List.mem_cons, Prod.mk.injEq, List.not_mem_nil, or_false] at named
    obtain ⟨rfl, rfl⟩ | ⟨rfl, rfl⟩ | ⟨rfl, rfl⟩ | ⟨rfl, rfl⟩ := named <;> rfl
  · rw [exec_setopt_colour running]
    rfl
  · rw [exec_setopt_colour running, colourValue_of_no_name _ fun name h => two_chars_ne_name h,
      hexColour_eq_some_iff.2 ⟨c0, c1, h0, h1, e0, e1, rfl, rfl⟩]
    rfl
  · have failed : colourValue (drawnColour s.draws) v = .failed := by
      cases v with
      | str t =>
        rw [colourValue_of_no_name _ fun name h e => noName name h (congrArg _ e)]
        cases hex : hexColour t with
        | none => rfl
        | some c =>
          obtain ⟨c0, c1, h0, h1, e0, e1, rfl, -⟩ := hexColour_eq_some_iff.1 hex
          exact absurd rfl (noHex c0 c1 h0 h1 e0 e1)
      | int n => rfl
      | num x => rfl
      | bool | null | composite => rfl
    rw [exec_setopt_colour running, failed, State.afterKeys_of_failedCodes rfl]
    rfl

end Sys2Proof.Machine
end

section
/-! ## SETOPT applies each key as it does alone (44_options.md R200, R201) -/

namespace Sys2Proof.Machine

variable {s : State} {o : List (String × Value)} {code : OptionCode}

/-- The code a pair alone gives; `drawn` is the colour `random` would take. -/
def codeAlone (drawn : Byte) (pair : String × Value) : OptionCode :=
  if pair.1 = "bpp" then if (bppValue pair.2).isFailed then .bpp else .noError
  else if pair.1 = "colour" then if (colourValue drawn pair.2).isFailed then .colour else .noError
  else if pair.1 = "orientation" then if (orientationValue pair.2).isFailed then .orientation else .noError
  else .noError

theorem resultCode_nil (choice : Nat) : resultCode choice [] = .noError := rfl

theorem resultCode_mem (choice : Nat) {failed : List OptionCode} (h : failed ≠ []) : resultCode choice failed ∈ failed := by
  have bound : choice % failed.length < failed.length := Nat.mod_lt _ (List.length_pos_iff.2 h)
  rw [resultCode, List.getD_eq_getElem _ _ bound]
  exact List.getElem_mem bound

theorem mem_failedCodes_iff {b : KeyOutcome PixelDepth} {c : KeyOutcome Byte} {r : KeyOutcome Orientation} :
    code ∈ failedCodes b c r ↔
      b.isFailed = true ∧ code = .bpp ∨ c.isFailed = true ∧ code = .colour ∨ r.isFailed = true ∧ code = .orientation := by
  cases hb : b.isFailed <;> cases hc : c.isFailed <;> cases hr : r.isFailed <;> simp [failedCodes, hb, hc, hr]

/-- The codes of the failing keys are those the pairs give alone. -/
theorem mem_failedCodes_iff_alone (single : NoDuplicateKey o) (drawn : Byte) :
    code ∈ failedCodes (keyOutcome "bpp" bppValue o) (keyOutcome "colour" (colourValue drawn) o)
        (keyOutcome "orientation" orientationValue o) ↔
      code ≠ .noError ∧ ∃ pair ∈ o, codeAlone drawn pair = code := by
  rw [mem_failedCodes_iff, keyOutcome_isFailed_iff single bpp_recognized,
    keyOutcome_isFailed_iff single colour_recognized, keyOutcome_isFailed_iff single orientation_recognized]
  constructor
  · rintro (⟨⟨v, hv, failed⟩, rfl⟩ | ⟨⟨v, hv, failed⟩, rfl⟩ | ⟨⟨v, hv, failed⟩, rfl⟩)
    all_goals exact ⟨by decide, _, hv, by simp [codeAlone, failed]⟩
  · rintro ⟨nonzero, ⟨key, v⟩, hv, rfl⟩
    unfold codeAlone at nonzero ⊢
    split_ifs at nonzero ⊢ with bpp failed colour failed orientation failed
    · exact .inl ⟨⟨v, bpp ▸ hv, failed⟩, rfl⟩
    · exact absurd rfl nonzero
    · exact .inr (.inl ⟨⟨v, colour ▸ hv, failed⟩, rfl⟩)
    · exact absurd rfl nonzero
    · exact .inr (.inr ⟨⟨v, orientation ▸ hv, failed⟩, rfl⟩)
    · exact absurd rfl nonzero
    · exact absurd rfl nonzero

/-- SETOPT of one pair returns the pair's code. -/
theorem exec_setopt_alone (running : s.Running) {pair : String × Value} (legal : NoAmbiguousBpp [pair])
    (code : OptionCode) :
    (∃ u, exec (.setopt (.pairs [pair])) s = .next u ∧ u.reply = some (.option code)) ↔
      codeAlone (drawnColour s.draws) pair = code := by
  have single := noDuplicateKey_singleton pair
  rw [exec_setopt_of_legal running single legal]
  set failed := failedCodes (keyOutcome "bpp" bppValue [pair])
    (keyOutcome "colour" (colourValue (drawnColour s.draws)) [pair])
    (keyOutcome "orientation" orientationValue [pair]) with hfailed
  have returned : resultCode (Config.failedChoice s.draws) failed = codeAlone (drawnColour s.draws) pair := by
    by_cases none : failed = []
    · rw [none, resultCode_nil]
      by_contra other
      have mem := (mem_failedCodes_iff_alone single (drawnColour s.draws)).2
        ⟨fun e => other e.symm, pair, List.mem_singleton_self pair, rfl⟩
      rw [← hfailed, none] at mem
      cases mem
    · obtain ⟨-, pair', mem, code⟩ :=
        (mem_failedCodes_iff_alone single (drawnColour s.draws)).1 (resultCode_mem (Config.failedChoice s.draws) none)
      rw [← code, List.mem_singleton.1 mem]
  constructor
  · rintro ⟨u, completes, reply⟩
    obtain rfl := Host.Outcome.next.inj completes
    exact returned.symm.trans (Reply.option.inj (Option.some.inj reply))
  · rintro rfl
    exact ⟨_, rfl, congrArg (fun code => some (Reply.option code)) returned⟩

/-- Settles O43: the list's outcome at each key is its value's alone, and the failing codes are those the pairs give alone. -/
theorem setoptAppliesEachKeyIndependently : Obligations.SetoptAppliesEachKeyIndependently := by
  intro s o running single legal
  set failed := failedCodes (keyOutcome "bpp" bppValue o)
    (keyOutcome "colour" (colourValue (drawnColour s.draws)) o) (keyOutcome "orientation" orientationValue o)
  have alone (code : OptionCode) := mem_failedCodes_iff_alone (code := code) single (drawnColour s.draws)
  refine ⟨_, resultCode (Config.failedChoice s.draws) failed, exec_setopt_of_legal running single legal, rfl,
    fun v hv => ⟨_, exec_setopt_bpp running (legal.singleton hv), ?_⟩, fun no => ?_,
    fun v hv _ => ⟨_, exec_setopt_colour running, ?_⟩, fun hv => ?_, fun no => ?_,
    fun v hv => ⟨_, exec_setopt_orientation running, ?_⟩, fun no => ?_, ?_, fun nonzero => ?_⟩
  · rw [keyOutcome_of_mem single bpp_recognized hv]
    rfl
  · rw [keyOutcome_of_forall_not_mem no]
    rfl
  · rw [keyOutcome_of_mem single colour_recognized hv]
    rfl
  · rw [keyOutcome_of_mem single colour_recognized hv]
    exact drawnColour_ne s.draws
  · rw [keyOutcome_of_forall_not_mem no]
    rfl
  · rw [keyOutcome_of_mem single orientation_recognized hv]
    rfl
  · rw [keyOutcome_of_forall_not_mem no]
    rfl
  · constructor
    · intro zero pair hp
      rw [exec_setopt_alone running (legal.singleton hp)]
      by_contra other
      have mem := (alone _).2 ⟨other, pair, hp, rfl⟩
      exact ((alone _).1 (resultCode_mem _ (List.ne_nil_of_mem mem))).1 zero
    · intro all
      by_contra nonzero
      have some_failed : failed ≠ [] := fun none => nonzero (by rw [none, resultCode_nil])
      obtain ⟨-, pair, hp, code⟩ := (alone _).1 (resultCode_mem (Config.failedChoice s.draws) some_failed)
      exact nonzero (code.symm.trans ((exec_setopt_alone running (legal.singleton hp) _).1 (all pair hp)))
  · have some_failed : failed ≠ [] := fun none => nonzero (by rw [none, resultCode_nil])
    obtain ⟨-, pair, hp, code⟩ := (alone _).1 (resultCode_mem (Config.failedChoice s.draws) some_failed)
    exact ⟨pair, hp, (exec_setopt_alone running (legal.singleton hp) _).2 code⟩

end Sys2Proof.Machine
end

section
/-! ## What an operation and a step can leave (10_state.md R20; 60_exceptions.md R240, R241, R247) -/

namespace Sys2Proof.Machine

variable {s t : State} {i : Instr}

/-- What BLIT can answer: it raises F_BAD_MODE or the precondition that fails, or leaves `afterBlit`. -/
theorem exec_blit_next {d n stride a m : Nat} (h : exec (.blit d n stride a m) s = .next t) :
    (s.pixelDepth = .unset ∧ t = (s.setFault (some .badMode)).setReply none) ∨
      ∃ depth, (∃ f, blitViolation s.config.hostAddrBits d n stride a m (outputHeight s.orientation)
          (rowBytes s.orientation depth) = some f ∧ t = (s.setFault (some f)).setReply none) ∨
        BuffersMeet s.config.hostAddrBits d n stride a m (outputHeight s.orientation) (rowBytes s.orientation depth) ∧
          t = s.afterBlit depth d stride a := by
  have running : s.Running := running_of_exec_next h
  cases hd : s.pixelDepth with
  | unset => exact .inl ⟨rfl, raise_next_iff.1 ((exec_blit_of_unset running hd).symm.trans h)⟩
  | bits depth =>
    refine .inr ⟨depth, ?_⟩
    cases violation : blitViolation s.config.hostAddrBits d n stride a m (outputHeight s.orientation)
        (rowBytes s.orientation depth) with
    | some f => exact .inl ⟨f, rfl, raise_next_iff.1 ((exec_blit_of_violation running hd violation).symm.trans h)⟩
    | none =>
      have buffers := blitViolation_eq_none_iff.1 violation
      exact .inr ⟨buffers, Host.Outcome.next.inj (h.symm.trans (exec_blit_of_buffersMeet running hd buffers))⟩

/-- What SETOPT can answer: a parse failure, a refusal, or the keys applied. -/
theorem exec_setopt_next {o : Options} (h : exec (.setopt o) s = .next t) :
    t = s.setReply (some (.option .jsonParse)) ∨ t = (s.setRefused true).setReply none ∨
      ∃ o' : List (String × Value), t = s.afterKeys (keyOutcome "bpp" bppValue o')
        (keyOutcome "colour" (colourValue (drawnColour s.draws)) o') (keyOutcome "orientation" orientationValue o') := by
  have running : s.Running := running_of_exec_next h
  cases o with
  | parseFail => exact .inl (answer_next_iff.1 (whenRunning_next h).2)
  | pairs o =>
    by_cases single : NoDuplicateKey o
    · by_cases legal : NoAmbiguousBpp o
      · exact .inr (.inr ⟨o, Host.Outcome.next.inj (h.symm.trans (exec_setopt_of_legal running single legal))⟩)
      · exact .inr (.inl (Host.Outcome.next.inj
          (h.symm.trans (setoptRefusesUnsettledForms s o running (.inr ⟨single, legal⟩)))))
    · exact .inr (.inl (Host.Outcome.next.inj (h.symm.trans (setoptRefusesUnsettledForms s o running (.inl single)))))

/-- A failed precondition is the cause R241 gives its fault. -/
theorem blitViolation_hasCause {d n stride a m : Nat} {o : Orientation} {depth : Depth} {config : Config} {f : Fault}
    (h : blitViolation config.hostAddrBits d n stride a m (outputHeight o) (rowBytes o depth) = some f) :
    f.hasCause config := by
  have legal : rowBytes o depth ∈ legalRowBytes := by cases o <;> cases depth <;> decide
  unfold blitViolation at h
  split_ifs at h with source strideBad destination overlap
  all_goals obtain rfl := Option.some.inj h
  · exact source
  · exact ⟨legal, strideBad⟩
  · exact destination
  · rw [not_or, not_not, Nat.not_lt] at source
    obtain ⟨rfl, sourceFits⟩ := source
    exact ⟨sourceFits, overlap.2⟩

/-- What an operation that answers a next state does to the marks: it leaves them clear, raises a fault with its cause or
refuses, and a mark is all that changes but the reply. -/
theorem exec_next_marks (h : exec i s = .next t) :
    (t.Running ∧ t.config = s.config) ∨
      (∃ f, f.hasCause s.config ∧ t = (s.setFault (some f)).setReply none) ∨ t = (s.setRefused true).setReply none := by
  have running : s.Running := running_of_exec_next h
  cases i with
  | blit d n stride a m =>
    obtain ⟨-, rfl⟩ | ⟨depth, ⟨f, violation, rfl⟩ | ⟨-, rfl⟩⟩ := exec_blit_next h
    · exact .inr (.inl ⟨.badMode, trivial, rfl⟩)
    · exact .inr (.inl ⟨f, blitViolation_hasCause violation, rfl⟩)
    · exact .inl ⟨running, rfl⟩
  | setopt o =>
    obtain rfl | rfl | ⟨o, rfl⟩ := exec_setopt_next h
    · exact .inl ⟨running, rfl⟩
    · exact .inr (.inr rfl)
    · exact .inl ⟨running, rfl⟩
  | in0 | in1 | in2 | in3 | in4 | in5 | in6 | out2 v | out3 v | out4 v | out5 v | out6 v | genint u c | qwidth | qheight =>
    obtain rfl := answer_next_iff.1 (whenRunning_next h).2
    exact .inl ⟨running, rfl⟩
  | reset =>
    obtain rfl := finish_next_iff.1 (whenRunning_next h).2
    exact .inl ⟨⟨rfl, rfl⟩, rfl⟩

/-- Host memory stays canonical and within the host's space under every operation: BLIT's region is inside it (R162). -/
theorem exec_next_memory (h : exec i s = .next t) (canonical : s.mem.wf = true)
    (within : s.mem.within s.config.hostAddrBits = true) :
    t.mem.wf = true ∧ t.mem.within s.config.hostAddrBits = true := by
  by_cases blit : ∃ d n stride a m, i = .blit d n stride a m
  · obtain ⟨d, n, stride, a, m, rfl⟩ := blit
    obtain ⟨-, rfl⟩ | ⟨depth, ⟨f, -, rfl⟩ | ⟨buffers, rfl⟩⟩ := exec_blit_next h
    · exact ⟨canonical, within⟩
    · exact ⟨canonical, within⟩
    · have region : d + stride * outputHeight s.orientation ≤ 2 ^ s.config.hostAddrBits :=
        (Nat.add_le_add_left buffers.destinationLength d).trans buffers.destinationFits
      exact ⟨Memory.writeRegion_wf canonical _ _ _, Memory.writeRegion_within within region _⟩
  · rw [exec_mem (fun d n stride a m e => blit ⟨d, n, stride, a, m, e⟩) h]
    exact ⟨canonical, within⟩

theorem portRead_none_badReadPort {p : Byte} (h : (portRead p : Option Instr) = none) : badReadPort p = true := by
  unfold portRead at h
  split at h
  case h_8 h0 h1 h2 h3 h4 h5 h6 =>
    simp only [imp_false] at h0 h1 h2 h3 h4 h5 h6
    simp only [badReadPort, decide_eq_true_eq]
    omega
  all_goals cases h

theorem portWrite_none_badWritePort {p v : Byte} (h : (portWrite p v : Option Instr) = none) :
    badWritePort p = true := by
  unfold portWrite at h
  split at h
  case h_6 h2 h3 h4 h5 h6 =>
    simp only [imp_false] at h2 h3 h4 h5 h6
    simp only [badWritePort, Bool.or_eq_true, decide_eq_true_eq]
    omega
  all_goals cases h

/-- A command that is no instruction is the cause R241 gives the fault it raises. -/
theorem decode_cases (c : Command) (config : Config) :
    (∃ i, decode c = .instr i) ∨ (decode c = .badCmd c.word ∧ (Fault.badCmd c.word).hasCause config) ∨
      ∃ p, decode c = .badPort p ∧ (Fault.badPort p).hasCause config := by
  cases hop : decodeOperation c.word c.side with
  | none => exact .inr (.inl ⟨decode_of_none hop, decodeOperation_eq_none_iff.1 hop⟩)
  | some op =>
    rw [decode_of_some hop]
    obtain ⟨i, hi, -⟩ | ⟨p, -, invalid, bad⟩ | ⟨p, v, -, invalid, bad⟩ := op.select_cases
    · exact .inl ⟨i, hi⟩
    · exact .inr (.inr ⟨p, bad, .inl (portRead_none_badReadPort invalid)⟩)
    · exact .inr (.inr ⟨p, bad, .inr (portWrite_none_badWritePort invalid)⟩)

/-- What a step can do: idle, raise over a command that is no instruction, run an operation, or store a byte of the host. -/
theorem step_cases (h : step s = .next t) :
    s.Running ∧
      ((s.pending = [] ∧ t = s) ∨
        (∃ f, f.hasCause s.config ∧ t = ((s.setPending s.pending.tail).setFault (some f)).setReply none) ∨
        (∃ i, exec i (s.setPending s.pending.tail) = .next t) ∨
        ∃ a v, a < 2 ^ s.config.hostAddrBits ∧ t = (s.setPending s.pending.tail).setMem (s.mem.write a v)) := by
  have running : s.Running := (whenRunning_next h).1
  refine ⟨running, ?_⟩
  cases hp : s.pending with
  | nil => exact .inl ⟨rfl, Host.Outcome.next.inj (h.symm.trans (step_of_idle running hp))⟩
  | cons action rest =>
    cases action with
    | issue c =>
      rw [step_of_issue running hp, runCommand] at h
      obtain ⟨i, hc⟩ | ⟨hc, cause⟩ | ⟨p, hc, cause⟩ := decode_cases c s.config
      all_goals rw [hc] at h
      · exact .inr (.inr (.inl ⟨i, h⟩))
      · exact .inr (.inl ⟨_, cause, raise_next_iff.1 h⟩)
      · exact .inr (.inl ⟨_, cause, raise_next_iff.1 h⟩)
    | store a v =>
      rw [step_of_store running hp] at h
      obtain ⟨inside, rfl⟩ := hostStore_next h
      exact .inr (.inr (.inr ⟨a, v, inside, rfl⟩))

/-- Settles O49: a step that idles or stores leaves the marks clear, and one that marks changes the mark alone. -/
theorem faultingStepChangesNothingElse : Obligations.FaultingStepChangesNothingElse := by
  intro s t h
  obtain ⟨⟨noFault, notRefused⟩, ⟨-, rfl⟩ | ⟨f, -, rfl⟩ | ⟨i, completes⟩ | ⟨a, v, -, rfl⟩⟩ := step_cases h
  · exact ⟨fun f fault => by simp [noFault] at fault, fun refused => by simp [notRefused] at refused⟩
  · refine ⟨fun g fault => ?_, fun refused => ?_⟩
    · obtain rfl := Option.some.inj fault
      rfl
    · exact absurd refused (by simp [notRefused])
  · obtain ⟨⟨clear, unrefused⟩, -⟩ | ⟨f, -, rfl⟩ | rfl := exec_next_marks completes
    · exact ⟨fun f fault => by simp [clear] at fault, fun refused => by simp [unrefused] at refused⟩
    · refine ⟨fun g fault => ?_, fun refused => ?_⟩
      · obtain rfl := Option.some.inj fault
        rfl
      · exact absurd refused (by simp [notRefused])
    · exact ⟨fun f fault => by simp [noFault] at fault, fun _ => rfl⟩
  · exact ⟨fun f fault => by simp [noFault] at fault, fun refused => by simp [notRefused] at refused⟩

/-- Settles O53: the marks and the memory of each thing a step can do. -/
theorem stepKeepsInv : Obligations.StepKeepsInv := by
  intro s t inv h
  obtain ⟨running, ⟨-, rfl⟩ | ⟨f, cause, rfl⟩ | ⟨i, completes⟩ | ⟨a, v, inside, rfl⟩⟩ := step_cases h
  · exact inv
  · exact ⟨inv.memory, inv.addresses, inv.addressBits, .inr running.2, fun g fault => Option.some.inj fault ▸ cause⟩
  · obtain ⟨canonical, within⟩ := exec_next_memory completes inv.memory inv.addresses
    obtain ⟨clear, config⟩ | ⟨f, cause, rfl⟩ | rfl := exec_next_marks completes
    · rw [← config] at within
      exact ⟨canonical, within, by rw [config]; exact inv.addressBits, .inl clear.1,
        fun g fault => by simp [clear.1] at fault⟩
    · exact ⟨canonical, within, inv.addressBits, .inr running.2, fun g fault => Option.some.inj fault ▸ cause⟩
    · exact ⟨canonical, within, inv.addressBits, .inl running.1, inv.cause⟩
  · exact ⟨Memory.write_wf inv.memory a v, Memory.write_within inv.addresses inside v, inv.addressBits, inv.oneMark,
      inv.cause⟩

/-- Settles O54: the memory is empty, the address width is 32 and no mark is set. -/
theorem resetStateHasInv : Obligations.ResetStateHasInv :=
  ⟨Memory.wf_nil, rfl, by decide, .inl rfl, fun _ fault => nomatch fault⟩

end Sys2Proof.Machine
end

section
/-! ## The writers of each field (10_state.md R20) -/

namespace Sys2Proof.Machine

/-- No value of `bpp` sets the depth back to UNSET (R204). -/
theorem bppValue_apply_eq_unset {old : PixelDepth} {v : Value} (h : (bppValue v).apply old = .unset) : old = .unset := by
  cases v with
  | int n =>
    rw [bppValue] at h
    split_ifs at h
    · cases h
    · cases h
    · exact h
  | num x =>
    rw [bppValue] at h
    split_ifs at h
    · exact h
    · exact h
  | str t | bool | null | composite => exact h

theorem bpp_apply_eq_unset {old : PixelDepth} {o : List (String × Value)}
    (h : (keyOutcome "bpp" bppValue o).apply old = .unset) : old = .unset := by
  unfold keyOutcome at h
  split at h
  · exact bppValue_apply_eq_unset h
  · exact h

/-- Settles O52: the state each operation can leave, field by field. -/
theorem fieldsChangeOnlyByTheirWriters : Obligations.FieldsChangeOnlyByTheirWriters := by
  intro s t i h notReset
  cases i with
  | reset => exact absurd rfl notReset
  | in0 | in1 | in2 | in3 | in4 | in5 | in6 | out2 v | out3 v | out4 v | out5 v | out6 v | qwidth | qheight =>
    obtain rfl := answer_next_iff.1 (whenRunning_next h).2
    simp
  | genint u c =>
    obtain rfl := answer_next_iff.1 (whenRunning_next h).2
    by_cases same : u = s.lastSampledTime
    · rw [Scheduler.sample_of_eq same]
      simp
    · rw [Scheduler.sample_of_ne same]
      simp [same]
  | blit d n stride a m =>
    obtain ⟨-, rfl⟩ | ⟨depth, ⟨f, -, rfl⟩ | ⟨-, rfl⟩⟩ := exec_blit_next h
    · simp
    · simp
    · simp [State.afterBlit]
  | setopt o =>
    obtain rfl | rfl | ⟨o, rfl⟩ := exec_setopt_next h
    · simp
    · simp
    · simpa [State.afterKeys] using bpp_apply_eq_unset

end Sys2Proof.Machine
end
